-- ==== Sys2Proof/Word.lean ====
section
/-! DEFINITION. The widths this hardware's registers and vectors have (spec 00 R11, 10 R20). -/

namespace Sys2Proof

/-- One byte of an access frame or of system memory. -/
abbrev Byte := BitVec 8

/-- A 32-bit register, or one half of a 64-bit register (R11). -/
abbrev Word := BitVec 32

/-- A 64-bit register; bits [31:0] are the word at the lower offset (R11, R71). -/
abbrev DWord := BitVec 64

/-- One of the three 256-bit vectors PMCNTEN, PMINTEN, PMOVS (R24, R25, R26). -/
abbrev Vec := BitVec 256

end Sys2Proof
end

