-- ==== Sys2Proof/Config.lean ====
section
/-! DEFINITION. The configuration record `Cfg` of spec 00 R8 as plain data, the free values the
architecture leaves open, and the one configuration that `State.reset` carries. A `Cfg` is a field of
the machine's state, so every statement over all states is a statement over every configuration (R9). -/

namespace Sys2Proof

/-- The operating states of the monitored agent an occurrence can be attributable to (R34 `opst`):
Secure, Non-secure, or any further state the implementation distinguishes. -/
inductive AgentState where
  | secure
  | nonSecure
  | other (k : Nat)
deriving DecidableEq, Repr

/-- One occurrence of an event, or one clock cycle (R34): `id` names which occurrence it is, `opst` the
operating state it is attributable to (possibly none), `debug` whether that is the Debug operating
state, `second` whether the agent is in the second state of PMCR.DP (R190, R191). -/
structure Occ where
  id : Nat
  opst : Option AgentState
  debug : Bool
  second : Bool
deriving DecidableEq, Repr

/-- One point of a tabulated `eventSel`: these register contents select occurrences named `id`. -/
structure SelRow where
  typer : Word
  filtr : Word
  id : Nat
deriving DecidableEq, Repr

/-- The IMPLEMENTATION DEFINED mapping `Cfg.eventSel(n, typer, filtr, e)` of one monitor (R8, R151) as
data. `table` is pointwise, so it agrees with any predicate on the points a run visits; the other two
are the short forms spec 95 uses: always, and `e.id = typer AND mask` with excluded event numbers. -/
inductive Selector where
  | always
  | typerIs (mask : Word) (excluded : List Word)
  | table (rows : List SelRow)
deriving DecidableEq, Repr

/-- One pattern of register contents that means "count the CHAIN event" (`Cfg.isChain`, R8, R200). -/
structure ChainRow where
  typerMask : Word
  typerVal : Word
  filtrMask : Word
  filtrVal : Word
deriving DecidableEq, Repr

/-- What the implementation fixes for one implemented monitor (R8: w, isCounter, hasOvf, hasTyper,
hasFiltr, the three `...Writable`, the masks and fixed values of R240, eventSel, isChain, incr). -/
structure MonCfg where
  index : Nat
  width : Nat
  isCounter : Bool
  hasOvf : Bool
  hasTyper : Bool
  hasFiltr : Bool
  cntrWritable : Bool
  typerWritable : Bool
  filtrWritable : Bool
  typerMask : Word
  typerFixed : Word
  filtrMask : Word
  filtrFixed : Word
  sel : Selector
  chainRows : List ChainRow
  /-- `Cfg.incr(n, e)` by the occurrence's id, which names the occurrence (R147). -/
  incr : List (Nat × Nat)
  /-- What an occurrence that `incr` does not list adds; 1 by default (R147). -/
  incrElse : Nat
deriving DecidableEq, Repr

/-- Whether an event is counted in the Debug operating state (R8 `dbgCount`, R186). -/
inductive DbgRule where
  | always
  | never
deriving DecidableEq, Repr

/-- `Cfg.chainOnFreeze` (R8, R184). -/
inductive ChainOnFreeze where
  | counted
  | dropped
  | either
deriving DecidableEq, Repr

/-- What one saved value register captures: `Cfg.svrMap(k)` (R213). -/
inductive SvrSlot where
  | counterLo (n : Nat)
  | counterHi (n : Nat)
  | ovs (m : Nat)
  | ssr
  | syndrome (j : Nat)
  | unused
deriving DecidableEq, Repr

/-- One implemented IMPDEF<k> register (R310): the pages it is in, which bits are stored, the value of
the others, and whether it and IMPDEF<k+1> form one 64-bit register, which is then in the pages of both
(DESIGN CHOICE, assumption log 12). -/
structure ImpdefCfg where
  index : Nat
  inPage0 : Bool
  inPage1 : Bool
  mask : Word
  fixed : Word
  pair64 : Bool
deriving DecidableEq, Repr

/-- The kind of affinity of R383. -/
inductive AffKind where
  | exact
  | subset
deriving DecidableEq, Repr

/-- A condition of the environment that an access gate can depend on (R89, R163): a lock of the implementation
(an OS Lock, say), whether an operating state of the agent is allowed, whether a capture is. -/
inductive EnvBit where
  | lock (k : Nat)
  | allowed (a : AgentState)
  | capture
deriving DecidableEq, Repr

/-- One term of `Cfg.accessGate` (R89): accesses the implementation forbids. `none` in a field leaves that
field open; `lo` to `hi` are byte offsets, and an access meets them if any byte of it lies in them; the term
holds only while each environment condition of `envIs` has the value beside it. Every predicate on the fields
of an access (R70) and on the conditions of `EnvBit` is the absence of all the terms of some list (assumption
log 15). -/
structure Deny where
  page1 : Option Bool
  lo : Nat
  hi : Nat
  ns : Option Bool
  write : Option Bool
  wide : Option Bool
  /-- The written value (0 for a read) has the bits `valueIs` under `valueMask`. -/
  valueMask : DWord
  valueIs : DWord
  envIs : List (EnvBit × Bool)
deriving DecidableEq, Repr

/-- `Cfg.aff` (R383): the PE or group of PEs the monitors relate to. -/
structure AffCfg where
  kind : AffKind
  level : Nat
  k : Nat
  a3 : Byte
  a2 : Byte
  a1 : Byte
  a0 : Byte
  u : Bool
  mt : Bool
deriving DecidableEq, Repr

/-- The identification constants that may differ between the pages (R372, R378, R380). -/
structure PageId where
  archRev : BitVec 4
  archVer : BitVec 4
  archPart : BitVec 12
  devSub : BitVec 4
deriving DecidableEq, Repr

/-- The configuration record of R8. `NMON` is `mons.length`, `impl(n)` is membership of index n in
`mons`, `NGRP` is `groups.length` and `grpN(g)` is `groups[g]`. -/
structure Cfg where
  size : Nat
  mons : List MonCfg
  groups : List Nat
  na : Bool
  fzo : Bool
  hdbg : Bool
  dbgDefault : DbgRule
  dbgCount : List (Nat × DbgRule)
  cc : Bool
  ccd : Bool
  ccInWait : Bool
  chain : Bool
  chainId : Nat
  chainAtomic : Bool
  fzoIgnoresChainedLow : Bool
  chainOnFreeze : ChainOnFreeze
  ss : Bool
  ssrr : Bool
  svrMap : List SvrSlot
  svr64 : List Nat
  hasSnapReqSignal : Bool
  tro : Bool
  ex : Bool
  dual : Bool
  base0 : Nat
  base1 : Nat
  msi : Bool
  msiCanDisable : Bool
  msiNsCfg : Bool
  msiShCfg : Bool
  msiAttrCfg : Bool
  msiNsWritable : Bool
  msiNsFixed : Bool
  nsmsiReset : Bool
  msiShFixed : BitVec 2
  msiAttrFixed : BitVec 4
  paSize : Nat
  bothSec : Bool
  hasIrq : Bool
  hasIrqWire : Bool
  hasIIDR : Bool
  hasPIDR : Bool
  hasAffinity : Bool
  atomic64 : Bool
  pair64 : Bool
  ceid : List Word
  ceidBase : List Nat
  secExt : Bool
  pmuSecure : Bool
  part16 : Bool
  part : BitVec 16
  jepId : BitVec 7
  jepCont : BitVec 4
  revMajor : BitVec 4
  revMinor : BitVec 4
  cmod : BitVec 4
  pidrSize : BitVec 4
  devid : Word
  id0 : PageId
  id1 : PageId
  aff : AffCfg
  impdef : List ImpdefCfg
  /-- `Cfg.accessGate` (R8, R89): an access that a term forbids is refused; empty by default. -/
  gate : List Deny
  /-- The open parameter `NA_BLOCKS_PMCR_RESET` of decision D22 (default false). -/
  naBlocksPmcrReset : Bool
  /-- The open parameter `MSI_ADDR_NS_GUARD` of decision D36 (default true). -/
  msiAddrNsGuard : Bool
deriving DecidableEq, Repr

/-- The free values of R13 `draw`: value number k of a run, about which nothing can be proved.
`State.draws` counts how many have been used. Assumption log 3. -/
opaque Config.drawn : Nat → BitVec 64

/-- PMDEVAFF bits U (bit 1 here) and MT (bit 0 here) when F0V = 0: UNKNOWN, fixed per implementation
(R386, U50). Assumption log 4. -/
opaque Config.devaffUnknown : BitVec 2

/-- An event counter of the reference configuration, with the event number in PMEVTYPER<n>[15:0] and
event 0x00C4 meaning CHAIN. -/
def Config.refCounter (n w : Nat) : MonCfg where
  index := n
  width := w
  isCounter := true
  hasOvf := true
  hasTyper := true
  hasFiltr := true
  cntrWritable := true
  typerWritable := true
  filtrWritable := true
  typerMask := 0x0000FFFF
  typerFixed := 0
  filtrMask := 0x000000FF
  filtrFixed := 0x00000100
  sel := .typerIs 0x0000FFFF [0x000000C4]
  chainRows := [⟨0x0000FFFF, 0x000000C4, 0, 0⟩]
  incr := []
  incrElse := 1

/-- The configuration `State.reset` carries: every extension present, in one page, monitors wider than
32 bits. DESIGN CHOICE (assumption log 2): the architecture describes no implementation (R9). It implements
IMPDEF<0>, all 32 bits of it stored, where the spec's default is that no IMPDEF register is implemented
(R310): that too is this model's choice. -/
def Config.reference : Cfg where
  size := 48
  mons := [Config.refCounter 0 48, Config.refCounter 1 48,
    { Config.refCounter 2 20 with isCounter := false, chainRows := [] },
    { Config.refCounter 31 32 with
        sel := .always, chainRows := [], typerMask := 0xFFFFFFFF, hasFiltr := false, filtrMask := 0,
        filtrFixed := 0 },
    Config.refCounter 32 48,
    { Config.refCounter 33 48 with isCounter := false, hasOvf := false, chainRows := [] }]
  groups := [4, 2]
  na := false
  fzo := true
  hdbg := true
  dbgDefault := .always
  dbgCount := []
  cc := true
  ccd := true
  ccInWait := false
  chain := true
  chainId := 0xC4
  chainAtomic := true
  fzoIgnoresChainedLow := true
  chainOnFreeze := .counted
  ss := true
  ssrr := true
  svrMap := [.counterLo 0, .counterHi 0, .counterLo 1, .counterHi 1, .counterLo 31, .unused, .ovs 0, .ovs 1, .syndrome 0, .ssr]
    ++ List.replicate 54 .unused
  svr64 := [0, 2]
  hasSnapReqSignal := true
  tro := true
  ex := true
  dual := false
  base0 := 0
  base1 := 0
  msi := true
  msiCanDisable := true
  msiNsCfg := true
  msiShCfg := true
  msiAttrCfg := true
  msiNsWritable := false
  msiNsFixed := false
  nsmsiReset := false
  msiShFixed := 0
  msiAttrFixed := 0
  paSize := 40
  bothSec := true
  hasIrq := true
  hasIrqWire := true
  hasIIDR := true
  hasPIDR := true
  hasAffinity := true
  atomic64 := true
  pair64 := true
  ceid := [0x00060000, 0, 0, 0]
  ceidBase := [0, 32, 64, 96]
  secExt := true
  pmuSecure := false
  part16 := false
  part := 0x9AB
  jepId := 0x3B
  jepCont := 0x4
  revMajor := 2
  revMinor := 1
  cmod := 0
  pidrSize := 0
  devid := 0x12345678
  id0 := ⟨0, 1, 0x123, 1⟩
  id1 := ⟨0, 1, 0x124, 1⟩
  aff := ⟨.exact, 0, 0, 0, 0, 1, 3, false, false⟩
  impdef := [⟨0, true, true, 0xFFFFFFFF, 0, false⟩]
  gate := []
  naBlocksPmcrReset := false
  msiAddrNsGuard := true

end Sys2Proof
end

