-- ==== Sys2Proof/Machine/CfgOps.lean ====
section
/-! DEFINITION. The functions of `Cfg` that the rules use: which monitors exist and what each can do
(R8, R22), group size (R197), the implementation defined mappings (R147, R151, R186, R200), masks
(R240, R261, R326, R353) and the snapshot map (R213). -/

namespace Sys2Proof

/-- The `w`-bit value whose bit i is `p i`. -/
def maskBits (p : Nat → Bool) : Nat → Nat
  | 0 => 0
  | k + 1 => maskBits p k + (if p k then 2 ^ k else 0)

/-- The `w`-bit vector whose bit i is `p i`. -/
def maskOf (w : Nat) (p : Nat → Bool) : BitVec w := BitVec.ofNat w (maskBits p w)

/-- The value paired with a key in a short table. -/
def lookupD {α : Type} (d : α) : List (Nat × α) → Nat → α
  | [], _ => d
  | (k, v) :: rest, n => if k = n then v else lookupD d rest n

/-- `WIDE` (R8): the 64-bit layout of the monitor value registers. -/
def Cfg.wide (c : Cfg) : Bool := decide (32 < c.size)

/-- `NMON` (R8). -/
def Cfg.nmon (c : Cfg) : Nat := c.mons.length

/-- `NGRP` (R8, R196). -/
def Cfg.ngrp (c : Cfg) : Nat := c.groups.length

/-- `grpN(g)`; a group that is not implemented has no monitors (R305). -/
def Cfg.grpN (c : Cfg) (g : Nat) : Nat := c.groups.getD g 0

/-- The most monitors one group can have (R197). -/
def Cfg.grpMax (c : Cfg) : Nat :=
  if c.ngrp ≤ 4 then 32
  else if c.ngrp ≤ 8 then (if c.wide then 16 else 32)
  else (if c.wide then 8 else 16)

/-- The record of monitor n, if it is implemented (R22). -/
def Cfg.mon (c : Cfg) (n : Nat) : Option MonCfg := c.mons.find? (fun m => m.index == n)

/-- `impl(n)` (R8). -/
def Cfg.impl (c : Cfg) (n : Nat) : Bool := (c.mon n).isSome

/-- A property of monitor n; false of a monitor that is not implemented. -/
def Cfg.monIs (c : Cfg) (f : MonCfg → Bool) (n : Nat) : Bool :=
  match c.mon n with
  | some m => f m
  | none => false

/-- `w(n)` (R21); 0 for a monitor that is not implemented. -/
def Cfg.width (c : Cfg) (n : Nat) : Nat :=
  match c.mon n with
  | some m => m.width
  | none => 0

/-- `isCounter(n)` (R8). -/
def Cfg.isCounter (c : Cfg) (n : Nat) : Bool := c.monIs MonCfg.isCounter n

/-- `hasOvf(n)` (R8, R25). -/
def Cfg.hasOvf (c : Cfg) (n : Nat) : Bool := c.monIs MonCfg.hasOvf n

/-- `hasTyper(n)` (R8, R233). -/
def Cfg.hasTyper (c : Cfg) (n : Nat) : Bool := c.monIs MonCfg.hasTyper n

/-- `hasFiltr(n)` (R8, R234). -/
def Cfg.hasFiltr (c : Cfg) (n : Nat) : Bool := c.monIs MonCfg.hasFiltr n

/-- `cntrWritable(n)` (R85). -/
def Cfg.cntrWritable (c : Cfg) (n : Nat) : Bool := c.monIs MonCfg.cntrWritable n

/-- `typerWritable(n)` (R85), of a register that exists. -/
def Cfg.typerWritable (c : Cfg) (n : Nat) : Bool :=
  c.monIs (fun m => m.hasTyper && m.typerWritable) n

/-- `filtrWritable(n)` (R85), of a register that exists. -/
def Cfg.filtrWritable (c : Cfg) (n : Nat) : Bool :=
  c.monIs (fun m => m.hasFiltr && m.filtrWritable) n

/-- Monitor n is the dedicated cycle counter (R187). -/
def Cfg.isCycle (c : Cfg) (n : Nat) : Bool := c.cc && n == 31

/-- The value a w(n)-bit monitor holds after a write of `v` (R13 `x[n] <- v`, R239). -/
def Cfg.wrap (c : Cfg) (n v : Nat) : DWord := BitVec.ofNat 64 (v % 2 ^ c.width n)

/-- A register value under a write mask: written bits inside it, fixed bits outside (R240). -/
def masked (mask fixed v : Word) : Word := (v &&& mask) ||| (fixed &&& ~~~mask)

/-- What a write of `v` to PMEVTYPER<n> stores (R233, R240). -/
def Cfg.typerValue (c : Cfg) (n : Nat) (v : Word) : Word :=
  match c.mon n with
  | some m => masked m.typerMask m.typerFixed v
  | none => 0

/-- What a write of `v` to PMEVFILTR<n> stores (R234, R240). -/
def Cfg.filtrValue (c : Cfg) (n : Nat) (v : Word) : Word :=
  match c.mon n with
  | some m => masked m.filtrMask m.filtrFixed v
  | none => 0

/-- `Cfg.eventSel(n, typer, filtr, e)` (R144, R151, R154). -/
def Selector.selects (sel : Selector) (typer filtr : Word) (e : Occ) : Bool :=
  match sel with
  | .always => true
  | .typerIs mask excluded =>
    e.id == (typer &&& mask).toNat && !excluded.contains (typer &&& mask)
  | .table rows => rows.any (fun r => r.typer == typer && r.filtr == filtr && r.id == e.id)

/-- `Cfg.eventSel` of monitor n; false of a monitor that is not implemented. -/
def Cfg.eventSel (c : Cfg) (n : Nat) (typer filtr : Word) (e : Occ) : Bool :=
  c.monIs (fun m => m.sel.selects typer filtr e) n

/-- `Cfg.incr(n, e)` (R147). -/
def Cfg.incr (c : Cfg) (n : Nat) (e : Occ) : Nat :=
  match c.mon n with
  | some m => lookupD m.incrElse m.incr e.id
  | none => 1

/-- `Cfg.isChain(n, typer, filtr)`, which requires `CHAIN` (R8, R200). -/
def Cfg.isChain (c : Cfg) (n : Nat) (typer filtr : Word) : Bool :=
  c.chain && c.monIs (fun m => m.chainRows.any (fun r =>
    (typer &&& r.typerMask) == r.typerVal && (filtr &&& r.filtrMask) == r.filtrVal)) n

/-- The rule `Cfg.dbgCount` gives occurrences named `id`, if it gives one (R186). -/
def Cfg.dbgRule (c : Cfg) (id : Nat) : Option DbgRule :=
  (c.dbgCount.find? (fun p => p.1 == id)).map Prod.snd

/-- PMCNTEN[n] exists (R262). -/
def Cfg.hasEnable (c : Cfg) (n : Nat) : Bool := c.impl n

/-- PMINTEN[n] and PMOVS[n] exist (R262). -/
def Cfg.hasFlag (c : Cfg) (n : Nat) : Bool := c.impl n && c.hasOvf n

/-- `pmask(CNTEN, m)` (R261). -/
def Cfg.enableMask (c : Cfg) (m : Nat) : Word := maskOf 32 (fun q => c.hasEnable (q + 32 * m))

/-- `pmask(INTEN, m)` and `pmask(OVS, m)` (R261). -/
def Cfg.flagMask (c : Cfg) (m : Nat) : Word := maskOf 32 (fun q => c.hasFlag (q + 32 * m))

/-- `rpmask` (R326): PMSSRR.RP[m] is stored iff PMSSRR is implemented and monitor m is. -/
def Cfg.rpmask (c : Cfg) : DWord := maskOf 64 (fun m => c.ssrr && c.impl m)

/-- `amask` (R353): the implemented bits of the message address. -/
def Cfg.amask (c : Cfg) : DWord := maskOf 64 (fun i => decide (2 ≤ i) && decide (i < c.paSize))

/-- `Cfg.svrMap(k)` (R213). -/
def Cfg.svrSlot (c : Cfg) (k : Nat) : SvrSlot := c.svrMap.getD k .unused

/-- The index of a slot of the snapshot map: `svrMap.ssr` and `svrMap.ovs(m)` (R330, R341). -/
def Cfg.slotIdx (c : Cfg) (slot : SvrSlot) : Nat := c.svrMap.findIdx (fun t => decide (t = slot))

/-- `Cfg.svrMap.ssr`: where PMSSSR is among the saved value registers (R330). -/
def Cfg.ssrIdx (c : Cfg) : Nat := c.slotIdx .ssr

/-- The record of IMPDEF<k>, if the implementation defines one (R310). -/
def Cfg.impdefAt (c : Cfg) (k : Nat) : Option ImpdefCfg := c.impdef.find? (fun d => d.index == k)

/-- What a write of `v` to IMPDEF<k> stores. -/
def Cfg.impdefValue (c : Cfg) (k : Nat) (v : Word) : Word :=
  match c.impdefAt k with
  | some d => masked d.mask d.fixed v
  | none => 0

/-- The implemented monitor indices. -/
def Cfg.indices (c : Cfg) : List Nat := c.mons.map MonCfg.index

/-- The CHAIN occurrence that an overflow by occurrence `e` makes (R202). -/
def Cfg.chainOcc (c : Cfg) (e : Occ) : Occ := { e with id := c.chainId }

/-- The per-page identification constants (R372). -/
def Cfg.pageId (c : Cfg) (second : Bool) : PageId := if second then c.id1 else c.id0

end Sys2Proof
end

