-- ==== Sys2Proof/Machine/Ident.lean ====
section
/-! DEFINITION. The values of the read-only registers: the configuration register (R284), the group and
common event registers (R305, R308) and the identification registers (R376 to R406). -/

namespace Sys2Proof

/-- Bit `i` of a word, if `b`. -/
def bitIf (b : Bool) (i : Nat) : Word := if b then (1#32) <<< i else 0

/-- PMCFGR as Page 0, or the single page, reads it (R284 to R292). -/
def Cfg.pmcfgr (c : Cfg) : Word :=
  (BitVec.ofNat 32 (c.ngrp - 1)) <<< 28 ||| bitIf c.hdbg 24 ||| bitIf c.tro 23 ||| bitIf c.ss 22
    ||| bitIf c.fzo 21 ||| bitIf c.msi 20 ||| bitIf c.na 17 ||| bitIf c.ex 16
    ||| bitIf (c.cc && c.ccd) 15 ||| bitIf c.cc 14
    ||| ((BitVec.ofNat 6 (c.size - 1)).setWidth 32) <<< 8 ||| (BitVec.ofNat 8 (c.nmon - 1)).setWidth 32

/-- PMCFGR as each page reads it: Page 1 keeps only NCG, SS, CC, SIZE and N (R283). -/
def Cfg.pmcfgrView (c : Cfg) (second : Bool) : Word :=
  if second then c.pmcfgr &&& 0xF0407FFF else c.pmcfgr

/-- PMCGCR<k>: byte m is the number of monitors of group 4k + m; RES0 with one group (R305). -/
def Cfg.pmcgcr (c : Cfg) (k : Nat) : Word :=
  if 1 < c.ngrp then
    BitVec.ofNat 8 (c.grpN (4 * k + 3)) ++ BitVec.ofNat 8 (c.grpN (4 * k + 2))
      ++ BitVec.ofNat 8 (c.grpN (4 * k + 1)) ++ BitVec.ofNat 8 (c.grpN (4 * k))
  else 0

/-- PMCEID<k> (R308). -/
def Cfg.pmceid (c : Cfg) (k : Nat) : Word := c.ceid.getD k 0

/-- PMDEVARCH as each page reads it (R378). -/
def Cfg.pmdevarch (c : Cfg) (second : Bool) : Word :=
  (0x477#12) ++ (c.pageId second).archRev ++ (c.pageId second).archVer ++ (c.pageId second).archPart

/-- PMDEVTYPE as each page reads it (R380). -/
def Cfg.pmdevtype (c : Cfg) (second : Bool) : Word := (0#24) ++ (c.pageId second).devSub ++ (6#4)

/-- The affinity field value that marks a subset of `2^(k+1)` values of a level (R383). -/
def affSub (a : Byte) (k : Nat) : Byte := (a >>> (k + 1)) <<< (k + 1) ||| (1#8) <<< k

/-- Aff3, Aff2, Aff1, Aff0 and F0V of an affinity (the table of R383). -/
def AffCfg.fields (a : AffCfg) : Byte × Byte × Byte × Byte × Bool :=
  match a.kind, a.level with
  | .exact, 0 => (a.a3, a.a2, a.a1, a.a0, true)
  | .subset, 0 => (a.a3, a.a2, a.a1, affSub a.a0 a.k, false)
  | .exact, 1 => (a.a3, a.a2, a.a1, 0x80, false)
  | .subset, 1 => (a.a3, a.a2, affSub a.a1 a.k, 0, false)
  | .exact, 2 => (a.a3, a.a2, 0x80, 0, false)
  | .subset, _ => (a.a3, affSub a.a2 a.k, 0, 0, false)
  | .exact, _ => (a.a3, 0x80, 0, 0, false)

/-- The 64-bit PMDEVAFF an affinity is encoded as (R382, R386); U and MT are free values unless the
affinity is with one PE (U50). -/
def AffCfg.encode (a : AffCfg) : DWord :=
  match a.fields with
  | (f3, f2, f1, f0, f0v) =>
    let u := if f0v then a.u else Config.devaffUnknown.getLsbD 1
    let mt := if f0v then a.mt else Config.devaffUnknown.getLsbD 0
    (0#24) ++ f3 ++ BitVec.ofBool f0v ++ BitVec.ofBool u ++ (0#5) ++ BitVec.ofBool mt ++ f2 ++ f1 ++ f0

/-- PMDEVAFF (R386): zero when the monitors have no affinity. -/
def Cfg.pmdevaff (c : Cfg) : DWord := if c.hasAffinity then c.aff.encode else 0

/-- What software learns from PMDEVAFF (R384). `level` and `group` name the affinity; a subset keeps the
compared bits of its level's field in `group`. -/
inductive Affinity where
  | onePE (a3 a2 a1 a0 : Byte)
  | subset (level k : Nat) (a3 a2 a1 a0 : Byte)
  | group (level : Nat) (a3 a2 a1 : Byte)
deriving DecidableEq, Repr

/-- The index of the least-significant set bit of a byte; 8 if there is none (R384 `ctz`). -/
def ctz8 (b : Byte) : Nat :=
  if b.getLsbD 0 then 0 else if b.getLsbD 1 then 1 else if b.getLsbD 2 then 2
  else if b.getLsbD 3 then 3 else if b.getLsbD 4 then 4 else if b.getLsbD 5 then 5
  else if b.getLsbD 6 then 6 else if b.getLsbD 7 then 7 else 8

/-- Decoding PMDEVAFF, software's side (R384); the reserved encoding is rejected. -/
def affDecode (v : DWord) : Option Affinity :=
  let f3 := v.extractLsb' 32 8
  let f2 := v.extractLsb' 16 8
  let f1 := v.extractLsb' 8 8
  let f0 := v.extractLsb' 0 8
  if v.getLsbD 31 then some (.onePE f3 f2 f1 f0)
  else if f0 ≠ 0 ∧ f0 ≠ 0x80 then some (.subset 0 (ctz8 f0) f3 f2 f1 ((f0 >>> (ctz8 f0 + 1)) <<< (ctz8 f0 + 1)))
  else if f0 = 0x80 then some (.group 1 f3 f2 f1)
  else if f1 ≠ 0 ∧ f1 ≠ 0x80 then some (.subset 1 (ctz8 f1) f3 f2 ((f1 >>> (ctz8 f1 + 1)) <<< (ctz8 f1 + 1)) 0)
  else if f1 = 0x80 then some (.group 2 f3 f2 0)
  else if f2 = 0 then none
  else if f2 ≠ 0x80 then some (.subset 2 (ctz8 f2) f3 ((f2 >>> (ctz8 f2 + 1)) <<< (ctz8 f2 + 1)) 0 0)
  else some (.group 3 f3 0 0)

/-- The affinity a configuration describes, in the form `affDecode` gives (R383). -/
def AffCfg.affinity (a : AffCfg) : Affinity :=
  match a.kind, a.level with
  | .exact, 0 => .onePE a.a3 a.a2 a.a1 a.a0
  | .subset, 0 => .subset 0 a.k a.a3 a.a2 a.a1 ((a.a0 >>> (a.k + 1)) <<< (a.k + 1))
  | .exact, 1 => .group 1 a.a3 a.a2 a.a1
  | .subset, 1 => .subset 1 a.k a.a3 a.a2 ((a.a1 >>> (a.k + 1)) <<< (a.k + 1)) 0
  | .exact, 2 => .group 2 a.a3 a.a2 0
  | .subset, _ => .subset 2 a.k a.a3 ((a.a2 >>> (a.k + 1)) <<< (a.k + 1)) 0 0
  | .exact, _ => .group 3 a.a3 0 0

/-- PMIIDR (R390). -/
def Cfg.pmiidr (c : Cfg) : Word :=
  if c.hasIIDR then
    c.part.extractLsb' 0 12 ++ c.revMajor ++ c.revMinor ++ c.jepCont ++ (0#1) ++ c.jepId
  else 0

/-- One byte in bits [7:0] of a word, RES0 above; zero when the Peripheral Identification scheme is
absent (R395). -/
def Cfg.pidr (c : Cfg) (b : Byte) : Word := if c.hasPIDR then (0#24) ++ b else 0

/-- PMPIDR0.PART_0 (R396). -/
def Cfg.pidr0 (c : Cfg) : Byte := c.part.extractLsb' 0 8

/-- PMPIDR1: DES_0 and PART_1 (R397). -/
def Cfg.pidr1 (c : Cfg) : Byte := c.jepId.extractLsb' 0 4 ++ c.part.extractLsb' 8 4

/-- PMPIDR2: REVISION or PART_2, JEDEC and DES_1 (R398). -/
def Cfg.pidr2 (c : Cfg) : Byte :=
  (if c.part16 then c.part.extractLsb' 12 4 else c.revMajor) ++ (1#1) ++ c.jepId.extractLsb' 4 3

/-- PMPIDR3: REVAND or REVISION, and CMOD (R399). -/
def Cfg.pidr3 (c : Cfg) : Byte := c.revMinor ++ c.cmod

/-- PMPIDR4: SIZE and DES_2 (R402). -/
def Cfg.pidr4 (c : Cfg) : Byte := c.pidrSize ++ c.jepCont

end Sys2Proof
end

