-- ==== Sys2Proof/Machine/CfgWf.lean ====
section
/-! DEFINITION. When a configuration is well formed (R8, R22, R119, R213, R293, R350, R372, R380, R383).
An ill-formed configuration is refused by `step` (R8, D3). -/

namespace Sys2Proof

/-- The fourteen sizes of the largest monitor (R286). -/
def sizes : List Nat := [8, 10, 12, 16, 20, 24, 32, 36, 40, 44, 48, 52, 56, 64]

/-- Index n is one of the first `grpN(g)` of its group g (R22, R198). -/
def Cfg.inGroup (c : Cfg) (n : Nat) : Bool := decide (n % c.grpMax < c.grpN (n / c.grpMax))

/-- Group g has every one of its first `grpN(g)` monitors among the indices l (R198). -/
def Cfg.groupFull (c : Cfg) (l : List Nat) (g : Nat) : Bool :=
  (List.range (c.grpN g)).all (fun k => l.contains (g * c.grpMax + k))

/-- Group g is the one index 31 belongs to, and 31 is the cycle counter: which of the group's monitors that
leaves is not stated (91 N14, assumption log 23). -/
def Cfg.groupOpen (c : Cfg) (g : Nat) : Bool := c.cc && g == 31 / c.grpMax

/-- Which indices are implemented (R22). Without groups they are the first NMON, but with the cycle counter
and fewer than 32 the first NMON - 1 and 31. With groups each group has exactly its first `grpN(g)` (R198).
Only the group of index 31 with the cycle counter is left open (91 N14, assumption log 23): it may lack any of its
first `grpN(g)` for 31, and `wfMonitors` holds the monitors in all to NMON, so it has `grpN(g)` like the others. -/
def Cfg.wfIndices (c : Cfg) (l : List Nat) : Bool :=
  if c.ngrp ≤ 1 then
    decide (l = if c.cc && decide (c.nmon < 32) then List.range (c.nmon - 1) ++ [31] else List.range c.nmon)
  else
    decide (l.Pairwise (· < ·)) && l.all (fun n => c.inGroup n || (c.cc && n == 31))
      && (List.range c.ngrp).all (fun g => c.groupOpen g || c.groupFull l g)

/-- One monitor's own constraints (R8, R147, R200, R240). -/
def MonCfg.wf (m : MonCfg) (c : Cfg) : Bool :=
  decide (1 ≤ m.width ∧ m.width ≤ c.size)
    && (!m.isCounter || m.hasOvf)
    && ((m.hasTyper && m.typerWritable) || m.typerMask == 0)
    && ((m.hasFiltr && m.filtrWritable) || m.filtrMask == 0)
    && (m.chainRows.isEmpty || c.chain)
    && ((m.incrElse :: m.incr.map Prod.snd).all (fun k => decide (1 ≤ k ∧ k < 2 ^ m.width)))
    && !(m.hasFiltr && decide (128 ≤ m.index))
    && !(c.ss && m.hasTyper && decide (128 ≤ m.index ∧ m.index < 192))

/-- How many monitors there are, how wide and which (R8, R22, R286, R293). -/
def Cfg.wfMonitors (c : Cfg) : Bool :=
  sizes.contains c.size
    && decide (1 ≤ c.nmon ∧ c.nmon ≤ (if c.wide then 128 else 256))
    && decide (1 ≤ c.ngrp ∧ c.ngrp ≤ 16)
    && decide (c.groups.sum = c.nmon)
    && (decide (c.ngrp ≤ 1) || c.groups.all (fun k => decide (k ≤ c.grpMax)))
    && c.wfIndices (c.mons.map MonCfg.index)
    && c.mons.all (fun m => decide (m.index < if c.wide then 128 else 256))
    && c.mons.all (fun m => m.wf c)
    && c.mons.any (fun m => m.width == c.size)

/-- The extensions' parameters (R8, R184, R185, R186, R293). `hasSnapReqSignal` has no constraint in R8 and has
none here: without the snapshot extension the signal exists and does nothing (DEDUCED, assumption log 21). -/
def Cfg.wfExtensions (c : Cfg) : Bool :=
  (!c.cc || (c.impl 31 && c.isCounter 31 && c.hasTyper 31))
    && (!c.ccd || (c.cc && decide (c.width 31 ≤ 32)))
    && (!c.ccInWait || (c.cc && c.fzo))
    && (c.chainOnFreeze == .counted || (c.chain && c.fzo && !c.fzoIgnoresChainedLow))
    && decide (c.hasIrq = c.mons.any MonCfg.hasOvf)
    && (!c.hasIrqWire || c.hasIrq)

/-- Slot k of the snapshot map is one the rules allow (R213, R341). -/
def Cfg.wfSlot (c : Cfg) (k : Nat) : Bool :=
  match c.svrSlot k with
  | .counterLo n => c.impl n
  | .counterHi n => c.wide && c.impl n && k % 2 == 1 && decide (c.svrSlot (k - 1) = .counterLo n)
  | .ovs m => decide (m < 8) && decide (c.slotIdx (.ovs m) = k)
      && (m == 0 || (decide (1 ≤ k) && decide (c.svrSlot (k - 1) = .ovs (m - 1))))
  | .ssr => decide (c.ssrIdx = k)
  | .syndrome _ => true
  | .unused => true

/-- The snapshot parameters (R8, R213, R336, R341). -/
def Cfg.wfSnapshot (c : Cfg) : Bool :=
  (!c.ssrr || c.ss) && (c.svr64.isEmpty || c.ss)
    && (!c.ss || (c.svrMap.length == 64 && decide (c.ssrIdx < 64)
      && (List.range 64).all (fun k => c.wfSlot k)
      && c.svr64.all (fun k => k % 2 == 0 && decide (k < 64))))

/-- The pages and the message-signalled interrupt parameters (R70, R350, R378). -/
def Cfg.wfInterface (c : Cfg) : Bool :=
  c.base0 % 4096 == 0 && c.base1 % 4096 == 0
    && (!c.dual || c.pmdevarch false != c.pmdevarch true)
    && (!c.msi || decide (3 ≤ c.paSize ∧ c.paSize ≤ 56))
    && !(c.msiNsCfg && c.msiNsWritable)

/-- The affinity is one of the cases of R383. -/
def AffCfg.wf (a : AffCfg) : Bool :=
  match a.kind with
  | .exact => decide (a.level ≤ 3)
  | .subset => decide (a.level ≤ 2 ∧ a.k ≤ 6)

/-- PMDEVTYPE.SUB is a value the architecture defines (R380). -/
def wfSub (sub : BitVec 4) : Bool := decide (sub.toNat ≤ 5 ∨ sub.toNat = 7)

/-- The identification constants and the IMPDEF registers (R308, R310, R372). `Cfg.aff` satisfies R383 whether or
not there is affinity: R372 names no condition (DEDUCED, assumption log 31). The two halves of a 64-bit
IMPDEF register are in the same pages: the spec does not say so (DESIGN CHOICE, assumption log 12). -/
def Cfg.wfIdent (c : Cfg) : Bool :=
  c.jepId != 0 && (c.part16 || decide (c.part.toNat < 4096))
    && wfSub c.id0.devSub && (!c.dual || wfSub c.id1.devSub)
    && c.aff.wf
    && c.ceid.length == 4 && c.ceidBase.length == 4
    && c.impdef.all (fun d => decide (d.index < 32) && (d.inPage0 || (c.dual && d.inPage1))
      && (!d.pair64 || (d.index % 2 == 0 && (match c.impdefAt (d.index + 1) with
        | some u => !c.dual || (u.inPage0 == d.inPage0 && u.inPage1 == d.inPage1)
        | none => false))))

/-- A well-formed configuration (R8): a PMU of this architecture. -/
def Cfg.wf (c : Cfg) : Bool :=
  c.wfMonitors && c.wfExtensions && c.wfSnapshot && c.wfInterface && c.wfIdent

end Sys2Proof
end

