-- ==== Sys2Proof/Syntax.lean ====
section
/-! DEFINITION. The instructions of this hardware: one register-interface access each (spec 00 R5). One
constructor per row of spec/opcode_table.json; each carries the row's index field, where it has one,
and the access applied to the location (spec 30 R110, R111). -/

namespace Sys2Proof

/-- The two register pages; a single-page implementation has only `p0` (R70, R111). -/
inductive Page where
  | p0
  | p1
deriving DecidableEq, Repr

/-- Direction, size and write data of an access: the four access forms of R110. -/
inductive AccOp where
  | rd32
  | wr32 (v : Word)
  | rd64
  | wr64 (v : DWord)
deriving DecidableEq, Repr

/-- An access without its offset (R70, R111): the page it hits, whether it is Non-secure, and the form. -/
structure Access where
  page : Page
  ns : Bool
  op : AccOp
deriving DecidableEq, Repr

/-- One constructor per row of spec/opcode_table.json (R112, R124). -/
inductive Instr where
  | pmevcntr (n : Nat) (a : Access)
  | pmevcntrLo (n : Nat) (a : Access)
  | pmevcntrHi (n : Nat) (a : Access)
  | pmccntr (a : Access)
  | pmccntrLo (a : Access)
  | pmccntrHi (a : Access)
  | pmevtyper (n : Nat) (a : Access)
  | pmccfiltr (a : Access)
  | pmsvr (k : Nat) (a : Access)
  | pmsssr (a : Access)
  | pmovssr (m : Nat) (a : Access)
  | pmevfiltr (n : Nat) (a : Access)
  | pmcntenset (m : Nat) (a : Access)
  | pmcntenclr (m : Nat) (a : Access)
  | pmintenset (m : Nat) (a : Access)
  | pmintenclr (m : Nat) (a : Access)
  | pmovsclr (m : Nat) (a : Access)
  | pmovsset (m : Nat) (a : Access)
  | pmcgcr (k : Nat) (a : Access)
  | impdef (k : Nat) (a : Access)
  | pmcfgr (a : Access)
  | pmcr (a : Access)
  | pmiidr (a : Access)
  | pmceid (k : Nat) (a : Access)
  | pmsscr (a : Access)
  | pmssrrLo (a : Access)
  | pmssrrHi (a : Access)
  | pmirqcr0Lo (a : Access)
  | pmirqcr0Hi (a : Access)
  | pmirqcr1 (a : Access)
  | pmirqcr2 (a : Access)
  | pmirqsrLo (a : Access)
  | pmirqsrHi (a : Access)
  | pmdevaffLo (a : Access)
  | pmdevaffHi (a : Access)
  | pmauthstatus (a : Access)
  | pmdevarch (a : Access)
  | pmdevid (a : Access)
  | pmdevtype (a : Access)
  | pmpidr4 (a : Access)
  | pmpidr5 (a : Access)
  | pmpidr6 (a : Access)
  | pmpidr7 (a : Access)
  | pmpidr0 (a : Access)
  | pmpidr1 (a : Access)
  | pmpidr2 (a : Access)
  | pmpidr3 (a : Access)
  | pmcidr0 (a : Access)
  | pmcidr1 (a : Access)
  | pmcidr2 (a : Access)
  | pmcidr3 (a : Access)
deriving DecidableEq, Repr

/-- The access an instruction applies to its location. -/
def Instr.access : Instr → Access
  | .pmevcntr _ a | .pmevcntrLo _ a | .pmevcntrHi _ a | .pmccntr a | .pmccntrLo a | .pmccntrHi a
  | .pmevtyper _ a | .pmccfiltr a | .pmsvr _ a | .pmsssr a | .pmovssr _ a | .pmevfiltr _ a
  | .pmcntenset _ a | .pmcntenclr _ a | .pmintenset _ a | .pmintenclr _ a | .pmovsclr _ a
  | .pmovsset _ a | .pmcgcr _ a | .impdef _ a | .pmcfgr a | .pmcr a | .pmiidr a | .pmceid _ a
  | .pmsscr a | .pmssrrLo a | .pmssrrHi a | .pmirqcr0Lo a | .pmirqcr0Hi a | .pmirqcr1 a
  | .pmirqcr2 a | .pmirqsrLo a | .pmirqsrHi a | .pmdevaffLo a | .pmdevaffHi a | .pmauthstatus a
  | .pmdevarch a | .pmdevid a | .pmdevtype a | .pmpidr4 a | .pmpidr5 a | .pmpidr6 a | .pmpidr7 a
  | .pmpidr0 a | .pmpidr1 a | .pmpidr2 a | .pmpidr3 a | .pmcidr0 a | .pmcidr1 a | .pmcidr2 a
  | .pmcidr3 a => a

end Sys2Proof
end

