-- ==== Sys2Proof/Machine/Map.lean ====
section
/-! DEFINITION. What the register map says of each register (spec 30 R112 to R119): the layout and index
range it needs, the pages that hold it and the access sizes it supports. -/

namespace Sys2Proof

/-- The pages that hold a register in a dual-page implementation (R117, R118, R222). -/
inductive PageSet where
  | page0
  | page1
  | both
deriving DecidableEq, Repr

/-- Whether an access through `p` reaches registers of the set; with one page every register is in it
(R70, R94). -/
def PageSet.admits (dual : Bool) (set : PageSet) (p : Page) : Bool :=
  if dual then
    match set, p with
    | .page0, .p0 => true
    | .page0, .p1 => false
    | .page1, .p0 => false
    | .page1, .p1 => true
    | .both, _ => true
  else p == .p0

/-- The pages of IMPDEF<k>: the implementation's choice (R222, R310). -/
def Cfg.impdefPages (c : Cfg) (k : Nat) : PageSet :=
  match c.impdefAt k with
  | some d => if d.inPage0 then (if d.inPage1 then .both else .page0) else .page1
  | none => .both

/-- The pages each register is in (R117, R118, R222, R371). -/
def Instr.pages (c : Cfg) : Instr → PageSet
  | .pmevcntr _ _ | .pmevcntrLo _ _ | .pmevcntrHi _ _ | .pmccntr _ | .pmccntrLo _ | .pmccntrHi _
  | .pmsvr _ _ | .pmsssr _ | .pmovssr _ _ | .pmovsclr _ _ | .pmovsset _ _ => .page1
  | .impdef k _ => c.impdefPages k
  | .pmcfgr _ | .pmiidr _ | .pmdevaffLo _ | .pmdevaffHi _ | .pmdevarch _ | .pmdevid _ | .pmdevtype _
  | .pmpidr4 _ | .pmpidr5 _ | .pmpidr6 _ | .pmpidr7 _ | .pmpidr0 _ | .pmpidr1 _ | .pmpidr2 _
  | .pmpidr3 _ | .pmcidr0 _ | .pmcidr1 _ | .pmcidr2 _ | .pmcidr3 _ => .both
  | .pmevtyper _ _ | .pmccfiltr _ | .pmevfiltr _ _ | .pmcntenset _ _ | .pmcntenclr _ _
  | .pmintenset _ _ | .pmintenclr _ _ | .pmcgcr _ _ | .pmcr _ | .pmceid _ _ | .pmsscr _
  | .pmssrrLo _ | .pmssrrHi _ | .pmirqcr0Lo _ | .pmirqcr0Hi _ | .pmirqcr1 _ | .pmirqcr2 _
  | .pmirqsrLo _ | .pmirqsrHi _ | .pmauthstatus _ => .page0

/-- `Cfg.svr64(k)`, k even: PMSVR<k> and PMSVR<k+1> are one 64-bit register (R336). -/
def Cfg.svrPair (c : Cfg) (k : Nat) : Bool := k % 2 == 0 && c.svr64.contains k

/-- Registers m and m + 1 of a set or clear array may be accessed as one (R77, R263). -/
def Cfg.setClearPair (c : Cfg) (m : Nat) : Bool := c.pair64 && m % 2 == 0

/-- IMPDEF<k> and IMPDEF<k+1> are one 64-bit register (R310). -/
def Cfg.impdefPair (c : Cfg) (k : Nat) : Bool :=
  k % 2 == 0 && (match c.impdefAt k with | some d => d.pair64 | none => false)

/-- A 64-bit access to the register is supported (R74). -/
def Instr.supports64 (c : Cfg) : Instr → Bool
  | .pmevcntrLo _ _ | .pmccntrLo _ | .pmssrrLo _ | .pmirqcr0Lo _ | .pmirqsrLo _ | .pmdevaffLo _ => true
  | .pmcntenset m _ | .pmcntenclr m _ | .pmintenset m _ | .pmintenclr m _ | .pmovsclr m _
  | .pmovsset m _ => c.setClearPair m
  | .pmsvr k _ => c.svrPair k
  | .pmsssr _ => c.svrPair c.ssrIdx
  | .pmovssr m _ => c.svrPair (c.slotIdx (.ovs m))
  | .impdef k _ => c.impdefPair k
  | .pmevcntr _ _ | .pmevcntrHi _ _ | .pmccntr _ | .pmccntrHi _ | .pmevtyper _ _ | .pmccfiltr _
  | .pmevfiltr _ _ | .pmcgcr _ _ | .pmcfgr _ | .pmcr _ | .pmiidr _ | .pmceid _ _ | .pmsscr _
  | .pmssrrHi _ | .pmirqcr0Hi _ | .pmirqcr1 _ | .pmirqcr2 _ | .pmirqsrHi _ | .pmdevaffHi _
  | .pmauthstatus _ | .pmdevarch _ | .pmdevid _ | .pmdevtype _ | .pmpidr4 _ | .pmpidr5 _
  | .pmpidr6 _ | .pmpidr7 _ | .pmpidr0 _ | .pmpidr1 _ | .pmpidr2 _ | .pmpidr3 _ | .pmcidr0 _
  | .pmcidr1 _ | .pmcidr2 _ | .pmcidr3 _ => false

/-- The access is a 64-bit one. -/
def AccOp.is64 : AccOp → Bool
  | .rd32 | .wr32 _ => false
  | .rd64 | .wr64 _ => true

/-- The register is in the map of a PMU with this configuration: layout, index range and names of shared
locations (R112 to R114, R119). Whether the register is present is its own rule's matter (R116). -/
def Instr.inMap (c : Cfg) : Instr → Bool
  | .pmevcntr n _ => !c.wide && decide (n < 256) && !c.isCycle n
  | .pmevcntrLo n _ | .pmevcntrHi n _ => c.wide && decide (n < 128) && !c.isCycle n
  | .pmccntr _ => !c.wide && c.cc
  | .pmccntrLo _ | .pmccntrHi _ => c.wide && c.cc
  | .pmevtyper n _ => decide (n < if c.ss then 128 else 256) && !c.isCycle n
  | .pmccfiltr _ => c.cc
  | .pmsvr k _ => c.ss && decide (k < 64)
      && (match c.svrSlot k with | .ssr | .ovs _ => false | _ => true)
  | .pmsssr _ => c.ss && decide (c.ssrIdx < 64) && decide (c.svrSlot c.ssrIdx = .ssr)
  | .pmovssr m _ => c.ss && decide (c.slotIdx (.ovs m) < 64)
      && decide (c.svrSlot (c.slotIdx (.ovs m)) = .ovs m)
  | .pmevfiltr n _ => decide (n < 128)
  | .pmcntenset m _ | .pmcntenclr m _ | .pmintenset m _ | .pmintenclr m _ | .pmovsclr m _
  | .pmovsset m _ => decide (m < 8)
  | .pmcgcr k _ | .pmceid k _ => decide (k < 4)
  | .impdef k _ => decide (k < 32)
  | .pmcfgr _ | .pmcr _ | .pmiidr _ | .pmsscr _ | .pmssrrLo _ | .pmssrrHi _ | .pmirqcr0Lo _
  | .pmirqcr0Hi _ | .pmirqcr1 _ | .pmirqcr2 _ | .pmirqsrLo _ | .pmirqsrHi _ | .pmdevaffLo _
  | .pmdevaffHi _ | .pmauthstatus _ | .pmdevarch _ | .pmdevid _ | .pmdevtype _ | .pmpidr4 _
  | .pmpidr5 _ | .pmpidr6 _ | .pmpidr7 _ | .pmpidr0 _ | .pmpidr1 _ | .pmpidr2 _ | .pmpidr3 _
  | .pmcidr0 _ | .pmcidr1 _ | .pmcidr2 _ | .pmcidr3 _ => true

end Sys2Proof
end

