-- ==== Sys2Proof/WellFormed.lean ====
section
/-! DEFINITION. Which instructions a PMU's register map has (spec 30 R112 to R119): in the map, through a page
that holds the register, with a supported access size. -/

namespace Sys2Proof

/-- A well-formed instruction: in the map, through a page that holds it, with a supported size. -/
def Instr.wf (c : Cfg) (i : Instr) : Bool :=
  i.inMap c && (i.pages c).admits c.dual i.access.page
    && (!i.access.op.is64 || i.supports64 c)

end Sys2Proof
end

