-- ==== Sys2Proof/Decode.lean ====
section
/-! DEFINITION. Decoding a register-interface access (spec 30 R110 to R121) from its byte frame, and the
encoder that writes the frame of an instruction. The frame's layout is this model's (assumption log 5);
what it carries, page, offset, size, direction, value and `ns`, is R111. -/

namespace Sys2Proof

/-- Why a frame is no access this hardware performs. Each is raised by `decode`; all are safe. -/
inductive DecodeError where
  /-- The frame is not twelve bytes long. -/
  | badLength
  /-- A frame bit that carries no field of R111 is set. -/
  | reservedFrameBits
  /-- The offset is not word aligned (R74, R421). -/
  | misaligned
  /-- An 8-bit or 16-bit access (R74, R421). -/
  | unsupportedSize
  /-- A 64-bit access at an offset that is not doubleword aligned (R74). -/
  | misaligned64
  /-- A read carries write data, or a 32-bit write carries more than 32 bits. -/
  | strayValue
  /-- An access to Page 1 of a single-page implementation (R70). -/
  | noSuchPage
  /-- A 64-bit access to a register that does not support it (R74, R421). -/
  | unsupported64
deriving DecidableEq, Repr

/-- An access as the interface receives it: its offset not yet decoded (R70). -/
structure RawAccess where
  off : Nat
  access : Access
deriving DecidableEq, Repr

/-- What an access decodes to (R110): a register of the map, or a reserved location. -/
inductive Decoded where
  | instr (i : Instr)
  | reserved (a : Access)
deriving DecidableEq, Repr

/-- The access writes. -/
def AccOp.isWrite : AccOp → Bool
  | .rd32 | .rd64 => false
  | .wr32 _ | .wr64 _ => true

/-- Bits [7:0] of the flags byte of a frame: page, direction, size code, `ns`. -/
def flagsByte (a : Access) : Byte :=
  (0#3) ++ BitVec.ofBool a.ns ++ (0#1) ++ BitVec.ofBool a.op.is64
    ++ BitVec.ofBool a.op.isWrite
    ++ BitVec.ofBool (a.page == .p1)

/-- The value field of a frame. -/
def valueField : AccOp → DWord
  | .rd32 | .rd64 => 0
  | .wr32 v => v.setWidth 64
  | .wr64 v => v

/-- Byte i of a doubleword, the least significant first. -/
def byteOf (v : DWord) (i : Nat) : Byte := v.extractLsb' (8 * i) 8

/-- The twelve bytes of an access (assumption log 5). -/
def frameOf (r : RawAccess) : List Byte :=
  let v := valueField r.access.op
  [BitVec.ofNat 8 r.off, BitVec.ofNat 8 (r.off / 256), flagsByte r.access, 0,
    byteOf v 0, byteOf v 1, byteOf v 2, byteOf v 3, byteOf v 4, byteOf v 5, byteOf v 6, byteOf v 7]

/-- The access form of a direction, a size and a value; `none` if the value is not one the form carries. -/
def formOf (write wide : Bool) (v : DWord) : Option AccOp :=
  match write, wide with
  | false, false => if v = 0 then some .rd32 else none
  | false, true => if v = 0 then some .rd64 else none
  | true, false => if v.extractLsb' 32 32 = 0 then some (.wr32 (v.extractLsb' 0 32)) else none
  | true, true => some (.wr64 v)

/-- Read the fields of a frame (R111). -/
def parseFrame (frame : List Byte) : Except DecodeError RawAccess :=
  match frame with
  | [b0, b1, b2, b3, v0, v1, v2, v3, v4, v5, v6, v7] =>
    let off := b0.toNat + 256 * b1.toNat
    let v : DWord := v7 ++ v6 ++ v5 ++ v4 ++ v3 ++ v2 ++ v1 ++ v0
    if 4096 ≤ off ∨ b3 ≠ 0 ∨ b2.extractLsb' 5 3 ≠ 0 then .error .reservedFrameBits
    else if b2.getLsbD 3 then .error .unsupportedSize
    else if off % 4 ≠ 0 then .error .misaligned
    else if b2.getLsbD 2 ∧ off % 8 ≠ 0 then .error .misaligned64
    else
      match formOf (b2.getLsbD 1) (b2.getLsbD 2) v with
      | some op => .ok ⟨off, ⟨if b2.getLsbD 0 then .p1 else .p0, b2.getLsbD 4, op⟩⟩
      | none => .error .strayValue
  | _ => .error .badLength

/-- The register at an offset of 0x000 to 0x3FC (R112, R113, R114 (a)). -/
def counterRow (c : Cfg) (off : Nat) : Access → Instr :=
  if c.wide then
    if c.isCycle (off / 8) then (if off % 8 = 0 then .pmccntrLo else .pmccntrHi)
    else (if off % 8 = 0 then .pmevcntrLo (off / 8) else .pmevcntrHi (off / 8))
  else if c.isCycle (off / 4) then .pmccntr else .pmevcntr (off / 4)

/-- The saved value register k under the name the snapshot map gives it (R114 (c)). -/
def svrRow (c : Cfg) (k : Nat) : Access → Instr :=
  match c.svrSlot k with
  | .ssr => .pmsssr
  | .ovs m => .pmovssr m
  | _ => .pmsvr k

/-- The registers at fixed offsets (R112). -/
def fixedRows : List (Nat × (Access → Instr)) :=
  [(0xE00, .pmcfgr), (0xE04, .pmcr), (0xE08, .pmiidr), (0xE30, .pmsscr), (0xE38, .pmssrrLo),
    (0xE3C, .pmssrrHi), (0xE80, .pmirqcr0Lo), (0xE84, .pmirqcr0Hi), (0xE88, .pmirqcr1),
    (0xE8C, .pmirqcr2), (0xEF8, .pmirqsrLo), (0xEFC, .pmirqsrHi), (0xFA8, .pmdevaffLo),
    (0xFAC, .pmdevaffHi), (0xFB8, .pmauthstatus), (0xFBC, .pmdevarch), (0xFC8, .pmdevid),
    (0xFCC, .pmdevtype), (0xFD0, .pmpidr4), (0xFD4, .pmpidr5), (0xFD8, .pmpidr6), (0xFDC, .pmpidr7),
    (0xFE0, .pmpidr0), (0xFE4, .pmpidr1), (0xFE8, .pmpidr2), (0xFEC, .pmpidr3), (0xFF0, .pmcidr0),
    (0xFF4, .pmcidr1), (0xFF8, .pmcidr2), (0xFFC, .pmcidr3)]

/-- The register a fixed offset selects. -/
def fixedRow (off : Nat) : Option (Access → Instr) :=
  (fixedRows.find? (fun p => p.1 == off)).map Prod.snd

/-- The register at a word-aligned offset (R112, R113, R119): `none` where no row has the offset. -/
def rowOf (c : Cfg) (off : Nat) : Option (Access → Instr) :=
  if off < 0x400 then some (counterRow c off)
  else if off < 0x600 then
    some (if c.isCycle ((off - 0x400) / 4) then .pmccfiltr else .pmevtyper ((off - 0x400) / 4))
  else if off < 0x700 then
    some (if c.ss then svrRow c ((off - 0x600) / 4) else .pmevtyper ((off - 0x400) / 4))
  else if off < 0x800 then (if c.ss then none else some (.pmevtyper ((off - 0x400) / 4)))
  else if off < 0xA00 then none
  else if off < 0xC00 then some (.pmevfiltr ((off - 0xA00) / 4))
  else if off < 0xC20 then some (.pmcntenset ((off - 0xC00) / 4))
  else if off < 0xC40 then some (.pmcntenclr ((off - 0xC20) / 4))
  else if off < 0xC60 then some (.pmintenset ((off - 0xC40) / 4))
  else if off < 0xC80 then some (.pmintenclr ((off - 0xC60) / 4))
  else if off < 0xCA0 then some (.pmovsclr ((off - 0xC80) / 4))
  else if off < 0xCC0 then none
  else if off < 0xCE0 then some (.pmovsset ((off - 0xCC0) / 4))
  else if off < 0xCF0 then some (.pmcgcr ((off - 0xCE0) / 4))
  else if off < 0xD80 then none
  else if off < 0xE00 then some (.impdef ((off - 0xD80) / 4))
  else if 0xE20 ≤ off ∧ off < 0xE30 then some (.pmceid ((off - 0xE20) / 4))
  else fixedRow off

/-- Decode an access (R110): the row its offset selects, if the page holds it; a location no rule
allocates is reserved (R82, R120). -/
def decodeRaw (c : Cfg) (r : RawAccess) : Except DecodeError Decoded :=
  if r.access.page = .p1 ∧ c.dual = false then .error .noSuchPage
  else
    match rowOf c r.off with
    | some row =>
      let i := row r.access
      if (i.pages c).admits c.dual r.access.page then
        (if r.access.op.is64 && !i.supports64 c then .error .unsupported64 else .ok (.instr i))
      else if r.access.op.is64 then .error .unsupported64
      else .ok (.reserved r.access)
    | none => if r.access.op.is64 then .error .unsupported64 else .ok (.reserved r.access)

/-- The decoder: total on any bytes. -/
def decode (c : Cfg) (frame : List Byte) : Except DecodeError Decoded :=
  match parseFrame frame with
  | .ok r => decodeRaw c r
  | .error e => .error e

/-- The offset of an instruction's register (R112 to R114). -/
def Instr.offset (c : Cfg) : Instr → Nat
  | .pmevcntr n _ => 4 * n
  | .pmevcntrLo n _ => 8 * n
  | .pmevcntrHi n _ => 8 * n + 4
  | .pmccntr _ => 0x07C
  | .pmccntrLo _ => 0x0F8
  | .pmccntrHi _ => 0x0FC
  | .pmevtyper n _ => 0x400 + 4 * n
  | .pmccfiltr _ => 0x47C
  | .pmsvr k _ => 0x600 + 4 * k
  | .pmsssr _ => 0x600 + 4 * c.ssrIdx
  | .pmovssr m _ => 0x600 + 4 * c.slotIdx (.ovs m)
  | .pmevfiltr n _ => 0xA00 + 4 * n
  | .pmcntenset m _ => 0xC00 + 4 * m
  | .pmcntenclr m _ => 0xC20 + 4 * m
  | .pmintenset m _ => 0xC40 + 4 * m
  | .pmintenclr m _ => 0xC60 + 4 * m
  | .pmovsclr m _ => 0xC80 + 4 * m
  | .pmovsset m _ => 0xCC0 + 4 * m
  | .pmcgcr k _ => 0xCE0 + 4 * k
  | .impdef k _ => 0xD80 + 4 * k
  | .pmcfgr _ => 0xE00
  | .pmcr _ => 0xE04
  | .pmiidr _ => 0xE08
  | .pmceid k _ => 0xE20 + 4 * k
  | .pmsscr _ => 0xE30
  | .pmssrrLo _ => 0xE38
  | .pmssrrHi _ => 0xE3C
  | .pmirqcr0Lo _ => 0xE80
  | .pmirqcr0Hi _ => 0xE84
  | .pmirqcr1 _ => 0xE88
  | .pmirqcr2 _ => 0xE8C
  | .pmirqsrLo _ => 0xEF8
  | .pmirqsrHi _ => 0xEFC
  | .pmdevaffLo _ => 0xFA8
  | .pmdevaffHi _ => 0xFAC
  | .pmauthstatus _ => 0xFB8
  | .pmdevarch _ => 0xFBC
  | .pmdevid _ => 0xFC8
  | .pmdevtype _ => 0xFCC
  | .pmpidr4 _ => 0xFD0
  | .pmpidr5 _ => 0xFD4
  | .pmpidr6 _ => 0xFD8
  | .pmpidr7 _ => 0xFDC
  | .pmpidr0 _ => 0xFE0
  | .pmpidr1 _ => 0xFE4
  | .pmpidr2 _ => 0xFE8
  | .pmpidr3 _ => 0xFEC
  | .pmcidr0 _ => 0xFF0
  | .pmcidr1 _ => 0xFF4
  | .pmcidr2 _ => 0xFF8
  | .pmcidr3 _ => 0xFFC

/-- The encoder: the frame of an instruction (R112, R113; assumption log 5). -/
def encode (c : Cfg) (i : Instr) : List Byte := frameOf ⟨i.offset c, i.access⟩

/-- Byte i of a number, the least significant first. -/
def natByte (w i : Nat) : Byte := BitVec.ofNat 8 (w / 2 ^ (8 * i))

/-- The twelve bytes of the access whose low `nbits` bits are `w` and whose other bits are 0. -/
def tableFrame (nbits w : Nat) : List Byte :=
  let v := w % 2 ^ nbits
  [natByte v 0, natByte v 1, natByte v 2, natByte v 3, natByte v 4, natByte v 5, natByte v 6,
    natByte v 7, natByte v 8, natByte v 9, natByte v 10, natByte v 11]

/-- The instruction the decoder reads from an opcode-table word, under the configuration of
`State.reset` (assumption logs 2 and 5). -/
def decodeTableWord (nbits w : Nat) : Option Instr :=
  match decode Config.reference (tableFrame nbits w) with
  | .ok (.instr i) => some i
  | .ok (.reserved _) => none
  | .error _ => none

end Sys2Proof
end

