-- ==== Sys2Proof/Machine/Sparse.lean ====
section
/-! DEFINITION. Sparse maps as plain data: a list of (key, value) pairs in one canonical form, keys
strictly rising and no pair equal to the default. System memory (R37) and the indexed register arrays
of the state record (R20) are held this way, so equal contents are equal lists. -/

namespace Sys2Proof.Machine

/-- The value at key `n`; an unlisted key reads as the default `d`. -/
def Sparse.get {α : Type} (d : α) : List (Nat × α) → Nat → α
  | [], _ => d
  | (k, v) :: rest, n => if k = n then v else Sparse.get d rest n

/-- Put a pair before the first larger key. -/
def Sparse.insert {α : Type} (n : Nat) (v : α) : List (Nat × α) → List (Nat × α)
  | [] => [(n, v)]
  | (k, w) :: rest => if n < k then (n, v) :: (k, w) :: rest else (k, w) :: Sparse.insert n v rest

/-- Drop every pair of key `n`. -/
def Sparse.erase {α : Type} (n : Nat) (m : List (Nat × α)) : List (Nat × α) :=
  m.filter (fun p => p.1 != n)

/-- Write `v` at key `n`; writing the default removes the pair. -/
def Sparse.set {α : Type} [DecidableEq α] (d : α) (m : List (Nat × α)) (n : Nat) (v : α) :
    List (Nat × α) :=
  if v = d then Sparse.erase n m else Sparse.insert n v (Sparse.erase n m)

/-- Keys strictly rise. -/
def Sparse.sorted {α : Type} : List (Nat × α) → Bool
  | [] => true
  | [_] => true
  | (k, _) :: (l, w) :: rest => decide (k < l) && Sparse.sorted ((l, w) :: rest)

/-- The canonical form: keys strictly rise and no pair holds the default. -/
def Sparse.wf {α : Type} [DecidableEq α] (d : α) (m : List (Nat × α)) : Bool :=
  Sparse.sorted m && m.all (fun p => decide (p.2 ≠ d))

end Sys2Proof.Machine
end

