-- ==== Sys2Proof/Machine/State.lean ====
section
/-! DEFINITION. The state: the state record of spec 10 R20, each component under its own name, with the
model's own plain data beside it: the configuration (R9), the environment's levels (R34), the steps
the environment still has to take, the accesses split in two, the answer of the last access, and the
system memory the interrupt message is written to. -/

namespace Sys2Proof.Machine

/-- An authentication status value (R376): 0b00, 0b10 or 0b11. -/
inductive Auth where
  | notImplemented
  | disabled
  | enabled
deriving DecidableEq, Repr

/-- The inputs of R34 that are levels: the authentication status (which fixes `allowed`, R376), which
further operating states are allowed, whether a capture is free of a security violation, and the locks
that are on, which `Cfg.accessGate` reads (R89). -/
structure Env where
  snid : Auth
  nsnid : Auth
  allowedOther : List Nat
  captureAllowed : Bool
  locks : List Nat
deriving DecidableEq, Repr

/-- A monitor register whose write can be pending (R33, R236). -/
inductive MonReg where
  | cntr (n : Nat)
  | typer (n : Nat)
  | filtr (n : Nat)
deriving DecidableEq, Repr

/-- One entry of `pend` (R33). -/
structure PendEntry where
  reg : MonReg
  val : DWord
deriving DecidableEq, Repr

/-- The operating states (R27, R141, R181). -/
inductive OpSt where
  | stop
  | run
  | wait
deriving DecidableEq, Repr

/-- The stored bits of PMCR (R28, R280). -/
structure PmcrBits where
  e : Bool
  d : Bool
  x : Bool
  dp : Bool
  fzo : Bool
  hdbg : Bool
  tro : Bool
deriving DecidableEq, Repr

/-- The fields of PMIRQCR2 (R30, R355). -/
structure Irqcr2Bits where
  msien : Bool
  nsmsi : Bool
  sh : BitVec 2
  memAttr : BitVec 4
deriving DecidableEq, Repr

/-- One interrupt message write, `MemWrite` of R358: four bytes of `data` at `addr`. -/
structure MsiMsg where
  addr : DWord
  data : Word
  ns : Bool
  sh : BitVec 2
  memAttr : BitVec 4
deriving DecidableEq, Repr

/-- What the last access answered: nothing yet, the data of a read, the end of a write, or that the
first half of a 64-bit access is done (R72, R73, R78). -/
inductive Resp where
  | none
  | data32 (w : Word)
  | data64 (d : DWord)
  | done
  | split
deriving DecidableEq, Repr

/-- A 64-bit access whose first half is done (R78): the word that half read, whether it was the high
half, and the access that makes the other half. -/
structure Split where
  firstWord : Word
  firstHi : Bool
  second : Instr
deriving DecidableEq, Repr

/-- One step some agent takes (R14, R34, R123, R140). -/
inductive Input where
  /-- An access arrives at the register interface (R84); the frame is decoded. -/
  | access (frame : List Byte)
  /-- The other half of the k-th outstanding split access arrives (R78). -/
  | splitHalf (k : Nat)
  /-- `Settle` (R143). -/
  | settle
  /-- `Count(n, e)` (R145). -/
  | count (n : Nat) (e : Occ)
  /-- `MonitorUpdate(n, v, ovf)` by the change `e` of what is monitored (R152, R154). -/
  | monitorUpdate (n : Nat) (v : DWord) (ovf : Bool) (e : Occ)
  /-- `TakeEffect(r)` (R86). -/
  | takeEffect (r : MonReg)
  /-- `Cycle` (R190). -/
  | cycle (c : Occ)
  /-- `ChainLo(n)` (R204). -/
  | chainLo (n : Nat)
  /-- PMUSNAPSHOTREQ is asserted (R210). -/
  | snapReq
  /-- `MsiStart` (R358). -/
  | msiStart
  /-- `MsiDone(err)` (R359). -/
  | msiDone (err : Bool)
  /-- The message write in progress reaches its target (R93, R461). -/
  | msiArrive
  /-- The k-th message write that a reset abandoned reaches its target, or is lost (R461). -/
  | strayEnd (k : Nat) (reaches : Bool)
  /-- The PMU's reset (R460). -/
  | reset
  /-- The environment's levels change (R14, R34). -/
  | setEnv (env : Env)
deriving DecidableEq, Repr

/-- Why a step faults: never. No access to the register interface faults, and the PMU raises no exception
(R420, R421, spec 93 section 1), so there is no reason to name. -/
inductive Fault where
deriving DecidableEq, Repr

/-- Why a step is refused. -/
inductive Refusal where
  /-- The instruction has no meaning yet; raised by no arm of `exec`. Safe. -/
  | notModelled (mnemonic : String)
  /-- The configuration is ill formed (R8, R293, D3); raised by `step`. Safe. -/
  | illFormedConfig
  /-- A 64-bit access to a register that does not support it (R74, R421, D29); raised by the meanings.
  Safe. -/
  | unsupportedAccess
  /-- The frame is no supported access (R74, R421, D29); raised by `step`. Safe. -/
  | badAccess (e : DecodeError)
  /-- An additional constraint forbids the access (R89); raised by `step`. Safe. -/
  | accessGated
deriving DecidableEq, Repr

/-- The state of one PMU and of its surroundings. -/
structure State where
  /-- `Cfg` (R8): no step changes it. -/
  cfg : Cfg
  /-- The environment's levels (R34). -/
  env : Env
  /-- The steps still to come, in order: every interleaving of the agents is some list (R14). -/
  inputs : List Input
  /-- The 64-bit accesses whose second half has not arrived yet (R78). -/
  splits : List Split
  /-- What the last access answered. -/
  resp : Resp
  /-- How many free values have been used (assumption log 3). -/
  draws : Nat
  /-- Every interrupt message write issued so far, the newest first (R358). -/
  sent : List MsiMsg
  /-- The message write in progress, if it has not reached its target yet (R358, R461). -/
  flight : Option MsiMsg
  /-- The message writes a reset abandoned that may still reach their targets, the oldest first (R461). -/
  strays : List MsiMsg
  /-- The Secure system physical address space (R37). -/
  memS : List Host.Cell
  /-- The Non-secure system physical address space (R37). -/
  memNS : List Host.Cell
  /-- `x[n]` (R20, R21): the monitor values; an unlisted one is 0. -/
  x : List (Nat × DWord)
  /-- `typer[n]` (R20, R23). -/
  typer : List (Nat × Word)
  /-- `filtr[n]` (R20, R23). -/
  filtr : List (Nat × Word)
  /-- `svr[k]` (R20, R29). -/
  svr : List (Nat × Word)
  /-- `impdef[k]` (R20, R31). -/
  impdef : List (Nat × Word)
  /-- `lowPend[n]` (R20, R33, R204): 0 where none is set. -/
  lowPend : List (Nat × Nat)
  /-- PMCNTEN (R24). -/
  cnten : Vec
  /-- PMINTEN (R25). -/
  inten : Vec
  /-- PMOVS (R26). -/
  ovs : Vec
  /-- PMCR (R28). -/
  pmcr : PmcrBits
  /-- The effective operating state (R27). -/
  st : OpSt
  /-- PMSSRR (R29). -/
  pmssrr : DWord
  /-- PMIRQCR0 (R30). -/
  irqcr0 : DWord
  /-- PMIRQCR1 (R30). -/
  irqcr1 : Word
  /-- PMIRQCR2 (R30). -/
  irqcr2 : Irqcr2Bits
  /-- PMIRQSR.IRQERR (R30). -/
  irqErr : Bool
  /-- `pend` (R33), the oldest entry first. -/
  pend : List PendEntry
  /-- `presc` (R33). -/
  presc : BitVec 6
  /-- `msiBusy`, which is PMIRQSR.IRQ (R30, R33). -/
  msiBusy : Bool
  /-- `irqPrev` (R33). -/
  irqPrev : Bool
deriving DecidableEq, Repr

/-- The machine right after reset. PMCR.E, PMIRQCR2.MSIEN and PMSSSR.NC are the spec's (R35, R40); `pend`,
`lowPend`, `msiBusy`, `irqPrev` and `st` are R40's; every other value is the model's (assumption logs 2
and 6). The bits of PMEVFILTR outside its mask read as the configuration fixes them (R240). -/
def State.reset : State where
  cfg := Config.reference
  env := ⟨.disabled, .enabled, [], true, []⟩
  inputs := []
  splits := []
  resp := .none
  draws := 0
  sent := []
  flight := none
  strays := []
  memS := []
  memNS := []
  x := []
  typer := []
  filtr := [(0, 0x100), (1, 0x100), (2, 0x100), (32, 0x100), (33, 0x100)]
  svr := [(9, 1)]
  impdef := []
  lowPend := []
  cnten := 0
  inten := 0
  ovs := 0
  pmcr := ⟨false, false, false, false, false, false, false⟩
  st := .stop
  pmssrr := 0
  irqcr0 := 0
  irqcr1 := 0
  irqcr2 := ⟨false, false, 0, 0⟩
  irqErr := false
  pend := []
  presc := 0
  msiBusy := false
  irqPrev := false

end Sys2Proof.Machine
end

