-- ==== Sys2Proof/Machine/Flags.lean ====
section
/-! DEFINITION. What the flags and control bits decide: the operating state (R141, R181), which overflow
flags freeze (R182), what is prohibited or halted (R160, R186), when a counter counts (R144), the
interrupt condition (R422), and the events that leave the PMU (R219). -/

namespace Sys2Proof.Machine

/-- The stored value of monitor n, `x[n]` (R21). -/
def State.xAt (s : State) (n : Nat) : DWord := Sparse.get 0 s.x n

/-- `typer[n]`, which is also `typer_eff[n]`: a pending write is not in it (R23, R144). -/
def State.typerAt (s : State) (n : Nat) : Word := Sparse.get 0 s.typer n

/-- `filtr[n]`, which is also `filtr_eff[n]` (R23, R144). -/
def State.filtrAt (s : State) (n : Nat) : Word := Sparse.get 0 s.filtr n

/-- `svr[k]` (R29). -/
def State.svrAt (s : State) (k : Nat) : Word := Sparse.get 0 s.svr k

/-- `impdef[k]` (R31). -/
def State.impdefAt (s : State) (k : Nat) : Word := Sparse.get 0 s.impdef k

/-- `lowPend[n]`; 0 where none is set (R33). -/
def State.lowAt (s : State) (n : Nat) : Nat := Sparse.get 0 s.lowPend n

/-- PMOVS[n] (R26). -/
def State.ovsBit (s : State) (n : Nat) : Bool := s.ovs.getLsbD n

/-- PMCNTEN[n] (R24). -/
def State.enabled (s : State) (n : Nat) : Bool := s.cnten.getLsbD n

/-- Odd counter n+1 is configured to count the CHAIN event of even counter n (R182). -/
def State.chained (s : State) (n : Nat) : Bool :=
  n % 2 == 0 && s.cfg.impl (n + 1) && s.cfg.isCounter (n + 1)
    && s.cfg.isChain (n + 1) (s.typerAt (n + 1)) (s.filtrAt (n + 1))

/-- The overflow flag of monitor n takes part in freeze-on-overflow (R182). -/
def State.applicable (s : State) (n : Nat) : Bool :=
  s.cfg.impl n && s.cfg.hasOvf n
    && !(s.cfg.chain && s.cfg.fzoIgnoresChainedLow && s.chained n)
    && !(s.cfg.isCycle n && s.cfg.ccInWait)

/-- `applicableOvs() ≠ 0` (R181). -/
def State.frozenBy (s : State) : Bool :=
  s.cfg.indices.any (fun n => s.applicable n && s.ovsBit n)

/-- `OpState()` (R141, R181). -/
def State.opState (s : State) : OpSt :=
  if s.pmcr.e = false then .stop
  else if s.cfg.fzo && s.pmcr.fzo && s.frozenBy then .wait
  else .run

/-- `irqCond` (R422). -/
def State.irqCond (s : State) : Bool :=
  s.opState != .stop
    && s.cfg.indices.any (fun n => s.cfg.hasOvf n && s.ovsBit n && s.inten.getLsbD n)

/-- `irqLevel`: the level of the interrupt request wire (R422, R423). -/
def State.irqLevel (s : State) : Bool := s.cfg.hasIrq && s.irqCond

/-- Non-invasive debug of an operating state is allowed (R34 `allowed`, R160, R376). -/
def Env.allowed (env : Env) : AgentState → Bool
  | .secure => env.snid == .enabled
  | .nonSecure => env.nsnid == .enabled
  | .other k => env.allowedOther.contains k

/-- A condition of the environment that an access gate can depend on (R89). -/
def Env.bit (env : Env) : EnvBit → Bool
  | .lock k => env.locks.contains k
  | .allowed a => env.allowed a
  | .capture => env.captureAllowed

/-- An occurrence attributable to this operating state, if to any, is prohibited (R160). -/
def State.prohibited (s : State) (opst : Option AgentState) : Bool :=
  match opst with
  | some a => !s.env.allowed a
  | none => false

/-- `haltBlocked(e)` (R186): what the implementation says of the event goes first, then PMCR.HDBG. -/
def State.haltBlocked (s : State) (e : Occ) : Bool :=
  e.debug && (match s.cfg.dbgRule e.id with
    | some .never => true
    | some .always => false
    | none => if s.cfg.hdbg then s.pmcr.hdbg else s.cfg.dbgDefault == .never)

/-- `counts(n, e)` (R144). -/
def State.counts (s : State) (n : Nat) (e : Occ) : Bool :=
  s.st == .run && s.enabled n && !s.prohibited e.opst && !s.haltBlocked e
    && s.cfg.eventSel n (s.typerAt n) (s.filtrAt n) e

/-- `ccCounts` (R190, R191). -/
def State.cycleCounts (s : State) (c : Occ) : Bool :=
  (s.st == .run || (s.st == .wait && s.cfg.ccInWait)) && s.enabled 31
    && !(s.pmcr.dp && c.second) && !s.haltBlocked c
    && s.cfg.eventSel 31 (s.typerAt 31) 0 c

/-- The occurrence leaves the PMU on the event bus (R219). -/
def State.exported (s : State) (e : Occ) : Bool := s.pmcr.x && !s.prohibited e.opst

/-- A trace of the occurrence may be generated: not while PMCR.TRO, where there is one, is 0, and never of a
prohibited one (R216). What a trace holds is the implementation's. -/
def State.mayTrace (s : State) (e : Occ) : Bool := (!s.cfg.tro || s.pmcr.tro) && !s.prohibited e.opst

/-- `msiEnabled` (R351). -/
def State.msiEnabled (s : State) : Bool := if s.cfg.msiCanDisable then s.irqcr2.msien else true

/-- `msiNS` (R351): the message is written to the Non-secure address space. -/
def State.msiNS (s : State) : Bool :=
  if s.cfg.msiNsCfg then s.irqcr2.nsmsi else if s.cfg.msiNsWritable then true else s.cfg.msiNsFixed

/-- `nsLocked` (R351). -/
def State.nsLocked (s : State) : Bool := s.cfg.bothSec && s.cfg.msiNsCfg && !s.irqcr2.nsmsi

/-- `nsBlocked(reg, ns)` of PMIRQCR1, PMIRQCR2 and PMIRQSR (R352). -/
def State.nsBlocked (s : State) (ns : Bool) : Bool := ns && s.nsLocked

/-- `nsBlocked(PMIRQCR0, ns)` (R352, D36). -/
def State.addrBlocked (s : State) (ns : Bool) : Bool := ns && s.nsLocked && s.cfg.msiAddrNsGuard

end Sys2Proof.Machine
end

