-- ==== Sys2Proof/Machine/Ops.lean ====
section
/-! DEFINITION. The named operations over the state: writing one element of a register array, setting a
flag, drawing a free value, the held-back chained update, counter arithmetic, resets, and what this
hardware has in place of taking an exception and returning from it: raising the interrupt message and
its completion (R427, R428; the PMU takes no exception, R420). -/

namespace Sys2Proof.Machine

/-! ### Register arrays, flags, free values -/

/-- `x[n] <- v` of a value that already has w(n) bits. -/
def State.putX (s : State) (n : Nat) (v : DWord) : State := { s with x := Sparse.set 0 s.x n v }

/-- `typer[n] <- v`. -/
def State.putTyper (s : State) (n : Nat) (v : Word) : State :=
  { s with typer := Sparse.set 0 s.typer n v }

/-- `filtr[n] <- v`. -/
def State.putFiltr (s : State) (n : Nat) (v : Word) : State :=
  { s with filtr := Sparse.set 0 s.filtr n v }

/-- `svr[k] <- v`. -/
def State.putSvr (s : State) (k : Nat) (v : Word) : State := { s with svr := Sparse.set 0 s.svr k v }

/-- `impdef[k] <- v`. -/
def State.putImpdef (s : State) (k : Nat) (v : Word) : State :=
  { s with impdef := Sparse.set 0 s.impdef k v }

/-- `lowPend[n] <- a`; 0 means none. -/
def State.putLow (s : State) (n a : Nat) : State :=
  { s with lowPend := Sparse.set 0 s.lowPend n a }

/-- One bit of a 256-bit vector. -/
def vecBit (n : Nat) : Vec := BitVec.ofNat 256 (2 ^ n)

/-- `PMOVS[n] <- 1` (R146, R153). -/
def State.raiseOvs (s : State) (n : Nat) : State := { s with ovs := s.ovs ||| vecBit n }

/-- `PMOVS[n] <- 0` (R212). -/
def State.dropOvs (s : State) (n : Nat) : State := { s with ovs := s.ovs &&& ~~~vecBit n }

/-- The next free value (R13 `draw`). -/
def State.drawn (s : State) : DWord := Config.drawn s.draws

/-- One free value has been used. -/
def State.used (s : State) : State := { s with draws := s.draws + 1 }

/-- Drop every pending write of `r` (R296, R297). -/
def State.dropPend (s : State) (r : MonReg) : State :=
  { s with pend := s.pend.filter (fun p => decide (p.reg ≠ r)) }

/-- The answer of an access. -/
def State.answer (s : State) (r : Resp) : State := { s with resp := r }

/-- The prescaler phase becomes any value, if there is a prescaler (R193, D34). -/
def State.redrawPresc (s : State) : State :=
  if s.cfg.cc && s.cfg.ccd then { s with presc := s.drawn.setWidth 6, draws := s.draws + 1 } else s

/-! ### Counting -/

/-- Add `a` to monitor n, wrapping, and set its overflow flag if the sum does not fit (R145, R146). -/
def State.addTo (s : State) (n a : Nat) : State :=
  let t := s.putX n (s.cfg.wrap n ((s.xAt n).toNat + a))
  if 2 ^ s.cfg.width n ≤ (s.xAt n).toNat + a then t.raiseOvs n else t

/-- `ChainLo(n)` where its precondition holds, nothing elsewhere (R204): the held-back low update. -/
def State.chainLo (s : State) (n : Nat) : State :=
  if s.lowAt n = 0 then s
  else ((s.putX n (s.cfg.wrap n ((s.xAt n).toNat + s.lowAt n))).raiseOvs n).putLow n 0

/-- Odd counter n+1 counts a CHAIN occurrence (R202): the last four of the conditions of R144. -/
def State.countsChain (s : State) (n : Nat) (e : Occ) : Bool :=
  s.st == .run && s.enabled (n + 1) && !s.prohibited e.opst
    && !s.haltBlocked (s.cfg.chainOcc e)

/-- `chainFrom(n)` (R202). -/
def State.chainFrom (s : State) (n : Nat) (e : Occ) : State :=
  if s.cfg.chain && s.chained n && s.countsChain n e then s.addTo (n + 1) 1 else s

/-- `chainFrom(n)` in a step that has just set PMOVS[n]: where that froze the PMU, `Cfg.chainOnFreeze`
says whether the one CHAIN occurrence is counted (R184). `before` is the operating state before the step. -/
def State.chainFromFrozen (s : State) (before : OpSt) (n : Nat) (e : Occ) : State :=
  if s.cfg.chain && s.chained n && decide (before ≠ .wait) && decide (s.opState = .wait) then
    match s.cfg.chainOnFreeze with
    | .counted => s.chainFrom n e
    | .dropped => s
    | .either => if s.drawn.getLsbD 0 then s.used.chainFrom n e else s.used
  else s.chainFrom n e

/-- Counter n adds `a` for occurrence `e` (R145), with chaining: the odd counter in the same step, or,
where the two are not updated atomically, the odd counter now and the even one by `ChainLo` (R204). -/
def State.countBy (s : State) (n a : Nat) (e : Occ) : State :=
  if 2 ^ s.cfg.width n ≤ (s.xAt n).toNat + a then
    if s.cfg.chain && s.chained n && !s.cfg.chainAtomic then (s.chainFrom n e).putLow n a
    else (s.addTo n a).chainFromFrozen s.opState n e
  else s.addTo n a

/-! ### Pending writes -/

/-- The newest pending value of a register (R87). -/
def newest (r : MonReg) : List PendEntry → Option DWord
  | [] => none
  | p :: rest =>
    match newest r rest with
    | some v => some v
    | none => if p.reg = r then some p.val else none

/-- The oldest pending value of a register, and the list without it (R86). -/
def takeOldest (r : MonReg) : List PendEntry → Option (DWord × List PendEntry)
  | [] => none
  | p :: rest =>
    if p.reg = r then some (p.val, rest)
    else
      match takeOldest r rest with
      | some (v, l) => some (v, p :: l)
      | none => none

/-- A register takes the value a write gave it (R86, R236). A held-back chained update of the counter goes first,
with its flag: R204 says so of a pending write that takes effect, and the model does the same for a write stored
in its own step (R241; DEDUCED, assumption log 30). A write of the cycle counter leaves the prescaler phase open
(R193). -/
def State.commit (s : State) (r : MonReg) (v : DWord) : State :=
  match r with
  | .cntr n =>
    let t := (s.chainLo n).putX n v
    if s.cfg.isCycle n then t.redrawPresc else t
  | .typer n => s.putTyper n (v.setWidth 32)
  | .filtr n => s.putFiltr n (v.setWidth 32)

/-! ### Resets of monitors -/

/-- One monitor's part of a reset by PMCR.P or PMCR.C (R296, R297): the held-back update goes first so that
its flag is not lost, pending writes are dropped, and the value becomes 0. -/
def State.clearMonitor (s : State) (n : Nat) : State :=
  ((s.chainLo n).dropPend (.cntr n)).putX n 0

/-- `resetMonitors()` (R296). -/
def State.resetMonitors (s : State) : State :=
  (s.cfg.indices.filter (fun n => !s.cfg.isCycle n)).foldl State.clearMonitor s

/-- `resetCycleCounter()` (R297). -/
def State.resetCycleCounter (s : State) : State := (s.clearMonitor 31).redrawPresc

/-! ### System memory -/

/-- One byte of system memory. An address nothing has written reads 0 (assumption log 7). -/
def readByte (mem : List Host.Cell) (a : Nat) : Byte := Sparse.get 0 mem a

/-- The canonical form of system memory. -/
def Memory.wf (mem : List Host.Cell) : Bool := Sparse.wf 0 mem

/-- `MemWrite(addr, 4, data)`: the four bytes of a word, the least significant at the lowest address
(R93, R358; assumption log 7). -/
def writeWord (mem : List Host.Cell) (a : Nat) (v : Word) : List Host.Cell :=
  let m0 := Sparse.set 0 mem a (v.extractLsb' 0 8)
  let m1 := Sparse.set 0 m0 (a + 1) (v.extractLsb' 8 8)
  let m2 := Sparse.set 0 m1 (a + 2) (v.extractLsb' 16 8)
  Sparse.set 0 m2 (a + 3) (v.extractLsb' 24 8)

/-! ### The interrupt message: in place of taking an exception and returning from one -/

/-- The address an interrupt message goes to (R353). -/
def State.msiAddr (s : State) : DWord := s.irqcr0 &&& s.cfg.amask

/-- The reserved values of SH and MemAttr (R355, U20). -/
def State.reservedAttr (s : State) : Bool :=
  (s.cfg.msiShCfg && s.irqcr2.sh == 1)
    || (s.cfg.msiAttrCfg && (s.irqcr2.memAttr == 4 || s.irqcr2.memAttr == 8 || s.irqcr2.memAttr == 12))

/-- The shareability and memory type a message carries (R350, R358); free values while a reserved value is
held (U20). -/
def State.msiLabels (s : State) : BitVec 2 × BitVec 4 :=
  if s.reservedAttr then (s.drawn.extractLsb' 0 2, s.drawn.extractLsb' 2 4)
  else (if s.cfg.msiShCfg then s.irqcr2.sh else s.cfg.msiShFixed,
    if s.cfg.msiAttrCfg then s.irqcr2.memAttr else s.cfg.msiAttrFixed)

/-- The message `MsiStart` would write now (R358). -/
def State.msiMsg (s : State) : MsiMsg :=
  ⟨s.msiAddr, s.irqcr1, s.msiNS, s.msiLabels.1, s.msiLabels.2⟩

/-- The precondition of `MsiStart` (R358). -/
def State.msiReady (s : State) : Bool :=
  s.cfg.msi && s.msiEnabled && s.irqCond && !s.irqPrev && !s.msiBusy

/-- A message write reaches its target (R93): its four bytes in the address space it names. -/
def State.land (s : State) (m : MsiMsg) : State :=
  { s with
    memS := if m.ns then s.memS else writeWord s.memS m.addr.toNat m.data
    memNS := if m.ns then writeWord s.memNS m.addr.toNat m.data else s.memNS }

/-- Raise the interrupt message (R358): issue the write of the payload to the address, mark it in progress and
remember that this rise of the condition has been signalled. -/
def State.msiStart (s : State) : State :=
  if s.msiReady then
    { s with
      irqPrev := true
      msiBusy := true
      sent := s.msiMsg :: s.sent
      flight := some s.msiMsg
      draws := if s.reservedAttr then s.draws + 1 else s.draws }
  else s

/-- The message write in progress reaches its target, if it has not yet (R461; assumption log 7). -/
def State.msiArrive (s : State) : State :=
  match s.flight with
  | some m => { s.land m with flight := none }
  | none => s

/-- The write in progress ends: without an error it has reached its target; with one, a free value says whether
it did, unless it already had (assumption log 7). -/
def State.endFlight (s : State) (err : Bool) : State :=
  if s.flight.isSome && err then
    (if s.drawn.getLsbD 0 then s.used.msiArrive else { s.used with flight := none })
  else s.msiArrive

/-- The message write completes (R359). -/
def State.msiDone (s : State) (err : Bool) : State :=
  if s.msiBusy then { s.endFlight err with msiBusy := false, irqErr := s.irqErr || err } else s

/-- The k-th abandoned message write reaches its target, or is lost; nothing if there is none (R461). -/
def State.strayEnd (s : State) (k : Nat) (reaches : Bool) : State :=
  match s.strays[k]? with
  | some m =>
    let t : State := { s with strays := s.strays.eraseIdx k }
    if reaches then t.land m else t
  | none => s

/-- After every step of any agent: a false interrupt condition re-arms the message (R358). -/
def State.rearm (s : State) : State := if s.irqCond then s else { s with irqPrev := false }

end Sys2Proof.Machine
end

