-- ==== Sys2Proof/Machine/Operands.lean ====
section
/-! DEFINITION. The operand forms: how a 32-bit or 64-bit access reads and writes a location (R72, R73,
R76 to R78), and how the monitor registers are read and written (R236, R237). -/

namespace Sys2Proof.Machine

/-- What one step of the register interface answers. -/
abbrev Result := Host.Outcome State Fault Refusal

/-- One 32-bit location: what a read returns and what a write does. -/
structure Half where
  rd : State → Word
  wr : Word → State → State

/-- A location that is read-only or holds a constant: writes are ignored (R73, D8). -/
def Half.readOnly (f : State → Word) : Half := ⟨f, fun _ s => s⟩

/-- A register that is absent: reads 0, writes ignored (R12, R82). -/
def Half.res0 : Half := Half.readOnly (fun _ => 0)

/-- A 32-bit access to a location, one atomic step (R72, R73, R78). -/
def Half.read (h : Half) (s : State) : State := s.answer (.data32 (h.rd s))

/-- A 32-bit write of a location. -/
def Half.write (h : Half) (v : Word) (s : State) : State := (h.wr v s).answer .done

/-- Every access to a location that is a register of 32 bits, or one half that admits no 64-bit access
(R74). -/
def access32 (h : Half) (a : Access) (s : State) : Result :=
  match a.op with
  | .rd32 => .next (h.read s)
  | .wr32 v => .next (h.write v s)
  | .rd64 => .refused .unsupportedAccess
  | .wr64 _ => .refused .unsupportedAccess

/-- Remember the other half of a 64-bit access that is not single-copy atomic (R78). -/
def State.splitOff (s : State) (firstWord : Word) (firstHi : Bool) (second : Instr) : State :=
  { s with splits := s.splits ++ [⟨firstWord, firstHi, second⟩], resp := .split }

/-- A 64-bit read: one step if 64-bit accesses are atomic, else the half a free value picks (R72, R78). -/
def read64 (lo hi : Half) (loI hiI : Access → Instr) (a : Access) (s : State) : State :=
  if s.cfg.atomic64 then s.answer (.data64 (hi.rd s ++ lo.rd s))
  else if s.drawn.getLsbD 0 then
    s.used.splitOff (hi.rd s) true (loI { a with op := .rd32 })
  else s.used.splitOff (lo.rd s) false (hiI { a with op := .rd32 })

/-- A 64-bit write: `both` in one step if 64-bit accesses are atomic, else one 32-bit write now and the
other later, in an order a free value picks (R73, R78). -/
def write64 (lo hi : Half) (both : DWord → State → State) (loI hiI : Access → Instr) (a : Access)
    (v : DWord) (s : State) : State :=
  if s.cfg.atomic64 then (both v s).answer .done
  else if s.drawn.getLsbD 0 then
    (hi.wr (v.extractLsb' 32 32) s.used).splitOff 0 true
      (loI { a with op := .wr32 (v.extractLsb' 0 32) })
  else
    (lo.wr (v.extractLsb' 0 32) s.used).splitOff 0 false
      (hiI { a with op := .wr32 (v.extractLsb' 32 32) })

/-- Every access at the lower offset of a 64-bit register or of a pair of 32-bit registers; `pair` says
whether 64-bit accesses to it are supported (R74, R77). -/
def access64 (pair : Bool) (lo hi : Half) (both : DWord → State → State) (loI hiI : Access → Instr)
    (a : Access) (s : State) : Result :=
  match a.op with
  | .rd32 => .next (lo.read s)
  | .wr32 v => .next (lo.write v s)
  | .rd64 => if pair then .next (read64 lo hi loI hiI a s) else .refused .unsupportedAccess
  | .wr64 v => if pair then .next (write64 lo hi both loI hiI a v s) else .refused .unsupportedAccess

/-- The 64-bit write of a pair of 32-bit registers: the two 32-bit writes in one step (R77, R263). -/
def pairWrite (lo hi : Half) (v : DWord) (s : State) : State :=
  hi.wr (v.extractLsb' 32 32) (lo.wr (v.extractLsb' 0 32) s)

/-! ### The monitor registers -/

/-- `writable(r)` (R85, R236). -/
def MonReg.writable (c : Cfg) : MonReg → Bool
  | .cntr n => c.cntrWritable n
  | .typer n => c.typerWritable n
  | .filtr n => c.filtrWritable n

/-- The committed value of a monitor register. -/
def State.stored (s : State) : MonReg → DWord
  | .cntr n => s.xAt n
  | .typer n => (s.typerAt n).setWidth 64
  | .filtr n => (s.filtrAt n).setWidth 64

/-- `readMonitorReg(r)` (R87, R237). -/
def State.readMonitorReg (s : State) (r : MonReg) : DWord :=
  match newest r s.pend with
  | some v => v
  | none => s.stored r

/-- A write of the cycle counter leaves the prescaler phase open (R193). -/
def State.reopenPresc (s : State) : MonReg → State
  | .cntr n => if s.cfg.isCycle n then s.redrawPresc else s
  | .typer _ => s
  | .filtr _ => s

/-- A write of a monitor register accepted now is stored in its own step (R236, R242): in STOP, settled there or
under `Cfg.NA`, where nothing is ever pending (R466 item 6; DEDUCED, assumption log 11). -/
def State.storesNow (s : State) : Bool :=
  decide (s.opState = .stop) && (s.cfg.na || decide (s.st = .stop))

/-- `writeMonitorReg(r, v)` (R236, R242). A write stored at once also ends any older pending write of r: `RegRead`
returns the last value written (R87; assumption log 10). -/
def State.writeMonitorReg (s : State) (r : MonReg) (v : DWord) : State :=
  if !r.writable s.cfg then s
  else if s.cfg.na && decide (s.opState ≠ .stop) then s
  else if s.storesNow then (s.dropPend r).commit r v
  else { s.reopenPresc r with pend := s.pend ++ [⟨r, v⟩] }

/-- What PMEVCNTR<n> reads (R230, R231, R238). -/
def State.readCounter (s : State) (n : Nat) : DWord :=
  if s.cfg.impl n then s.readMonitorReg (.cntr n) else 0

/-- A write of `v` to the whole of PMEVCNTR<n> (R230, R231, R238, R239). -/
def State.writeCounter (s : State) (n : Nat) (v : DWord) : State :=
  if s.cfg.impl n then s.writeMonitorReg (.cntr n) (s.cfg.wrap n v.toNat) else s

/-- PMEVCNTR<n> in the 32-bit layout (R230). -/
def counter32 (n : Nat) : Half :=
  ⟨fun s => if s.cfg.wide then 0 else (s.readCounter n).setWidth 32,
    fun v s => if s.cfg.wide then s else s.writeCounter n (v.setWidth 64)⟩

/-- The low half of PMEVCNTR<n> in the 64-bit layout: a write composes with the newest value (R231). -/
def counterLo (n : Nat) : Half :=
  ⟨fun s => if s.cfg.wide then (s.readCounter n).extractLsb' 0 32 else 0,
    fun v s => if s.cfg.wide then s.writeCounter n ((s.readCounter n).extractLsb' 32 32 ++ v) else s⟩

/-- The high half of PMEVCNTR<n> in the 64-bit layout (R231). -/
def counterHi (n : Nat) : Half :=
  ⟨fun s => if s.cfg.wide then (s.readCounter n).extractLsb' 32 32 else 0,
    fun v s => if s.cfg.wide then s.writeCounter n (v ++ (s.readCounter n).extractLsb' 0 32) else s⟩

/-- The 64-bit write of PMEVCNTR<n> (R231). -/
def counterBoth (n : Nat) (v : DWord) (s : State) : State :=
  if s.cfg.wide then s.writeCounter n v else s

/-- PMEVTYPER<n> (R233, R240). -/
def typerHalf (n : Nat) : Half :=
  ⟨fun s => if s.cfg.hasTyper n then (s.readMonitorReg (.typer n)).setWidth 32 else 0,
    fun v s => if s.cfg.hasTyper n then
      s.writeMonitorReg (.typer n) ((s.cfg.typerValue n v).setWidth 64) else s⟩

/-- PMEVFILTR<n> (R234, R240). -/
def filtrHalf (n : Nat) : Half :=
  ⟨fun s => if s.cfg.hasFiltr n then (s.readMonitorReg (.filtr n)).setWidth 32 else 0,
    fun v s => if s.cfg.hasFiltr n then
      s.writeMonitorReg (.filtr n) ((s.cfg.filtrValue n v).setWidth 64) else s⟩

/-- A location that is live only under a condition of the configuration, and absent otherwise (R116). -/
def Half.onlyIf (live : Cfg → Bool) (h : Half) : Half :=
  ⟨fun s => if live s.cfg then h.rd s else 0, fun v s => if live s.cfg then h.wr v s else s⟩

/-! ### The set and clear registers -/

/-- The 32 bits of a vector that register m of its arrays holds (R260, R261). -/
def window (v : Vec) (m : Nat) : Word := v.extractLsb' (32 * m) 32

/-- A word at the place of register m in a vector (R260). -/
def atWindow (w : Word) (m : Nat) : Vec := (w.setWidth 256) <<< (32 * m)

/-- PM{fn}SET<m> on the vector `get`, with the bits present in `mask` (R261). -/
def setHalf (get : State → Vec) (put : Vec → State → State) (mask : Cfg → Nat → Word) (m : Nat) : Half :=
  ⟨fun s => window (get s) m &&& mask s.cfg m,
    fun v s => put (get s ||| atWindow (v &&& mask s.cfg m) m) s⟩

/-- PM{fn}CLR<m> on the vector `get` (R261). -/
def clrHalf (get : State → Vec) (put : Vec → State → State) (mask : Cfg → Nat → Word) (m : Nat) : Half :=
  ⟨fun s => window (get s) m &&& mask s.cfg m,
    fun v s => put (get s &&& ~~~atWindow v m) s⟩

/-- `PMCNTEN <- v`. -/
def putCnten (v : Vec) (s : State) : State := { s with cnten := v }

/-- `PMINTEN <- v`. -/
def putInten (v : Vec) (s : State) : State := { s with inten := v }

/-- `PMOVS <- v`. -/
def putOvs (v : Vec) (s : State) : State := { s with ovs := v }

/-- PMCNTENSET<m> (R261, R265). -/
def cntenSetHalf (m : Nat) : Half := setHalf State.cnten putCnten Cfg.enableMask m

/-- PMCNTENCLR<m> (R261, R266). -/
def cntenClrHalf (m : Nat) : Half := clrHalf State.cnten putCnten Cfg.enableMask m

/-- PMINTENSET<m> (R261, R267). -/
def intenSetHalf (m : Nat) : Half := setHalf State.inten putInten Cfg.flagMask m

/-- PMINTENCLR<m> (R261, R268). -/
def intenClrHalf (m : Nat) : Half := clrHalf State.inten putInten Cfg.flagMask m

/-- PMOVSSET<m> (R261, R270). -/
def ovsSetHalf (m : Nat) : Half := setHalf State.ovs putOvs Cfg.flagMask m

/-- PMOVSCLR<m> (R261, R271). -/
def ovsClrHalf (m : Nat) : Half := clrHalf State.ovs putOvs Cfg.flagMask m

end Sys2Proof.Machine
end

