-- ==== Sys2Proof/Machine/Snapshot.lean ====
section
/-! DEFINITION. The capture (R211, R212) and the meanings of the accesses to the snapshot registers
(spec 45). -/

namespace Sys2Proof.Machine

/-- Save one value of the snapshot map (R211). A syndrome is a free value; an unused register is left. -/
def State.captureSlot (s : State) (k : Nat) : State :=
  match s.cfg.svrSlot k with
  | .counterLo n => s.putSvr k ((s.xAt n).extractLsb' 0 32)
  | .counterHi n => s.putSvr k ((s.xAt n).extractLsb' 32 32)
  | .ovs m => s.putSvr k (window s.ovs m)
  | .ssr => s.putSvr k 0
  | .syndrome _ => (s.putSvr k (s.drawn.setWidth 32)).used
  | .unused => s

/-- One monitor's part of the reset after a capture (R212). -/
def State.captureClear (s : State) (m : Nat) : State :=
  if s.pmssrr.getLsbD m && s.cfg.impl m then ((s.chainLo m).putX m 0).dropOvs m else s

/-- `captureReset()` (R212): the monitors of index 0 to 63 that PMSSRR selects. -/
def State.captureReset (s : State) : State :=
  if s.cfg.ssrr then (List.range 64).foldl State.captureClear s else s

/-- `Capture` (R211), with its precondition `Cfg.SS`. -/
def State.capture (s : State) : State :=
  if !s.cfg.ss then s
  else if s.env.captureAllowed then
    ((List.range 64).foldl State.captureSlot s).captureReset
  else s.putSvr s.cfg.ssrIdx 1

/-- What PMSVR<k> reads: the saved value; 0 where the map has nothing (R335) and without the snapshot
extension (R116). -/
def State.readSvr (s : State) (k : Nat) : Word :=
  if s.cfg.ss && decide (s.cfg.svrSlot k ≠ .unused) then s.svrAt k else 0

/-- PMSVR<k> as a location (R335). -/
def svrHalf (k : Nat) : Half := .readOnly (fun s => s.readSvr k)

/-- PMSSCR: write-only; writing 1 to SS captures in this step (R320). -/
def sscrHalf : Half := ⟨fun _ => 0, fun v s => if v.getLsbD 0 then s.capture else s⟩

/-- `PMSSRR AND rpmask`; RAZ without `Cfg.SSRR` (R325, R326). -/
def State.readSsrr (s : State) : DWord := s.pmssrr &&& s.cfg.rpmask

/-- `PMSSRR <- v AND rpmask` (R326); WI without `Cfg.SSRR` (R325). -/
def State.writeSsrr (s : State) (v : DWord) : State :=
  if s.cfg.ssrr then { s with pmssrr := v &&& s.cfg.rpmask } else s

/-- PMSSRR bits [31:0]: a write leaves the other half as it was (R326). -/
def ssrrLoHalf : Half :=
  ⟨fun s => s.readSsrr.extractLsb' 0 32,
    fun v s => if s.cfg.ssrr then
      { s with pmssrr := s.pmssrr.extractLsb' 32 32 ++ (v &&& s.cfg.rpmask.extractLsb' 0 32) } else s⟩

/-- PMSSRR bits [63:32] (R326). -/
def ssrrHiHalf : Half :=
  ⟨fun s => s.readSsrr.extractLsb' 32 32,
    fun v s => if s.cfg.ssrr then
      { s with pmssrr := (v &&& s.cfg.rpmask.extractLsb' 32 32) ++ s.pmssrr.extractLsb' 0 32 } else s⟩

/-- PMSVR<k> (R335, R336). -/
def execPmsvr (k : Nat) (a : Access) (s : State) : Result :=
  access64 (s.cfg.svrPair k) (svrHalf k) (svrHalf (k + 1)) (fun _ t => t) (.pmsvr k) (.pmsvr (k + 1)) a s

/-- PMSSSR: the saved value register `svrMap.ssr` (R330). -/
def execPmsssr (a : Access) (s : State) : Result :=
  access64 (s.cfg.svrPair s.cfg.ssrIdx) (svrHalf s.cfg.ssrIdx) (svrHalf (s.cfg.ssrIdx + 1))
    (fun _ t => t) .pmsssr (.pmsvr (s.cfg.ssrIdx + 1)) a s

/-- PMOVSSR<m>: the saved value register `svrMap.ovs(m)` (R340, R341). -/
def execPmovssr (m : Nat) (a : Access) (s : State) : Result :=
  access64 (s.cfg.svrPair (s.cfg.slotIdx (.ovs m))) (svrHalf (s.cfg.slotIdx (.ovs m)))
    (svrHalf (s.cfg.slotIdx (.ovs m) + 1)) (fun _ t => t) (.pmovssr m)
    (.pmsvr (s.cfg.slotIdx (.ovs m) + 1)) a s

/-- PMSSCR (R320). -/
def execPmsscr (a : Access) (s : State) : Result := access32 sscrHalf a s

/-- PMSSRR bits [31:0], and its 64-bit accesses (R325, R326). -/
def execPmssrrLo (a : Access) (s : State) : Result :=
  access64 true ssrrLoHalf ssrrHiHalf (fun v t => t.writeSsrr v) .pmssrrLo .pmssrrHi a s

/-- PMSSRR bits [63:32] (R325, R326). -/
def execPmssrrHi (a : Access) (s : State) : Result := access32 ssrrHiHalf a s

end Sys2Proof.Machine
end

