-- ==== Sys2Proof/Machine/Agents.lean ====
section
/-! DEFINITION. The hardware steps (R140) other than those of Machine/Ops.lean and the capture: each is a
total function that leaves the state alone where its precondition is false, and the reset (R460). -/

namespace Sys2Proof.Machine

/-- `Settle` (R143). -/
def State.settle (s : State) : State := { s with st := s.opState }

/-- `Count(n, e)` (R145). An occurrence that does not count is dropped. The dedicated cycle counter counts
by `Cycle` only (R190; assumption log 9). A held-back update of n goes first (R204). -/
def State.count (s : State) (n : Nat) (e : Occ) : State :=
  if s.cfg.isCounter n && !s.cfg.isCycle n && s.counts n e then
    (s.chainLo n).countBy n (s.cfg.incr n e) e
  else s

/-- The PMU monitors the change `e` with monitor n: RUN, enabled, not prohibited (R152), and the change is of
what PMEVTYPER<n> and PMEVFILTR<n> select (R154; assumption log 29). -/
def State.monitors (s : State) (n : Nat) (e : Occ) : Bool :=
  s.st == .run && s.enabled n && !s.prohibited e.opst
    && s.cfg.eventSel n (s.typerAt n) (s.filtrAt n) e

/-- `MonitorUpdate(n, v, ovf)` (R152, R153). -/
def State.monitorUpdate (s : State) (n : Nat) (v : DWord) (ovf : Bool) (e : Occ) : State :=
  if s.cfg.impl n && !s.cfg.isCounter n && s.monitors n e then
    let t := s.putX n (s.cfg.wrap n v.toNat)
    if s.cfg.hasOvf n && ovf then t.raiseOvs n else t
  else s

/-- `TakeEffect(r)` (R86). -/
def State.takeEffect (s : State) (r : MonReg) : State :=
  match takeOldest r s.pend with
  | some (v, rest) => State.commit { s with pend := rest } r v
  | none => s

/-- `Cycle` (R190): with the prescaler, one count per 64 counted cycles (R193). -/
def State.cycle (s : State) (c : Occ) : State :=
  if s.cfg.cc && s.cycleCounts c then
    if s.cfg.ccd && s.pmcr.d then
      let t : State := { s with presc := s.presc + 1 }
      if s.presc + 1 = 0 then t.addTo 31 1 else t
    else s.addTo 31 1
  else s

/-- An assertion of PMUSNAPSHOTREQ (R210). Without the signal there is none; without the snapshot extension
`State.capture` does nothing (R211, assumption log 21). -/
def State.snapReq (s : State) : State := if s.cfg.hasSnapReqSignal then s.capture else s

/-! ### Reset -/

/-- The k-th free value of this reset (R460 `draw`). -/
def State.fresh (s : State) (k : Nat) : DWord := Config.drawn (s.draws + k)

/-- 256 free bits of this reset. -/
def State.freshVec (s : State) (k : Nat) : Vec :=
  s.fresh (k + 3) ++ s.fresh (k + 2) ++ s.fresh (k + 1) ++ s.fresh k

/-- The monitor values after reset, each within its width (R460). -/
def State.resetX (s : State) : List (Nat × DWord) :=
  s.cfg.indices.foldl
    (fun m n => Sparse.set 0 m n (s.cfg.wrap n (s.fresh (32 + 3 * n)).toNat)) []

/-- The event select registers after reset, each within its mask (R460). -/
def State.resetTyper (s : State) : List (Nat × Word) :=
  (s.cfg.indices.filter s.cfg.hasTyper).foldl
    (fun m n => Sparse.set 0 m n (s.cfg.typerValue n ((s.fresh (33 + 3 * n)).setWidth 32))) []

/-- The event filter registers after reset, each within its mask (R460). -/
def State.resetFiltr (s : State) : List (Nat × Word) :=
  (s.cfg.indices.filter s.cfg.hasFiltr).foldl
    (fun m n => Sparse.set 0 m n (s.cfg.filtrValue n ((s.fresh (34 + 3 * n)).setWidth 32))) []

/-- The saved values after reset: PMSSSR.NC is 1, the others any value, the unused ones read 0 (R460). -/
def State.resetSvr (s : State) : List (Nat × Word) :=
  if s.cfg.ss then
    (List.range 64).foldl (fun m k =>
      match s.cfg.svrSlot k with
      | .ssr => Sparse.set 0 m k 1
      | .unused => m
      | _ => Sparse.set 0 m k ((s.fresh (800 + k)).setWidth 32)) []
  else []

/-- The IMPDEF registers after reset (R460). -/
def State.resetImpdef (s : State) : List (Nat × Word) :=
  s.cfg.impdef.foldl
    (fun m d => Sparse.set 0 m d.index (s.cfg.impdefValue d.index ((s.fresh (864 + d.index)).setWidth 32))) []

/-- `Reset` (R460, R461): the stated values, free values within the invariants of R466 for the rest, and
nothing in progress. What is outside the PMU stays: its inputs, the messages issued, system memory; a message
write that had not reached its target becomes one that still may (R461). -/
def State.resetStep (s : State) : State :=
  { s with
    draws := s.draws + 896
    x := s.resetX
    typer := s.resetTyper
    filtr := s.resetFiltr
    svr := s.resetSvr
    impdef := s.resetImpdef
    lowPend := []
    cnten := s.freshVec 0 &&& maskOf 256 s.cfg.hasEnable
    inten := s.freshVec 4 &&& maskOf 256 s.cfg.hasFlag
    ovs := s.freshVec 8 &&& maskOf 256 s.cfg.hasFlag
    pmcr :=
      { e := false
        d := s.cfg.cc && s.cfg.ccd && (s.fresh 12).getLsbD 0
        x := s.cfg.ex && (s.fresh 12).getLsbD 1
        dp := s.cfg.cc && (s.fresh 12).getLsbD 2
        fzo := s.cfg.fzo && (s.fresh 12).getLsbD 3
        hdbg := s.cfg.hdbg && (s.fresh 12).getLsbD 4
        tro := s.cfg.tro && (s.fresh 12).getLsbD 5 }
    st := .stop
    pmssrr := s.fresh 14 &&& s.cfg.rpmask
    irqcr0 := s.fresh 15 &&& s.cfg.amask
    irqcr1 := (s.fresh 16).setWidth 32
    irqcr2 :=
      { msien := false
        nsmsi := s.cfg.msi && s.cfg.msiNsCfg && s.cfg.nsmsiReset
        sh := if s.cfg.msi && s.cfg.msiShCfg then (s.fresh 13).extractLsb' 0 2 else 0
        memAttr := if s.cfg.msi && s.cfg.msiAttrCfg then (s.fresh 13).extractLsb' 2 4 else 0 }
    irqErr := (s.fresh 17).getLsbD 0
    pend := []
    presc := if s.cfg.cc && s.cfg.ccd then (s.fresh 18).setWidth 6 else 0
    flight := none
    strays := s.strays ++ s.flight.toList
    msiBusy := false
    irqPrev := false }

end Sys2Proof.Machine
end

