-- ==== Sys2Proof/Machine/Control.lean ====
section
/-! DEFINITION. The meanings of the accesses to PMCR, PMCFGR, PMCGCR<k>, PMCEID<k> and IMPDEF<k> (spec 44). -/

namespace Sys2Proof.Machine

/-- PMCR.NA (R299, D12). -/
def State.pmcrNa (s : State) : Bool := s.cfg.na && decide (s.opState ≠ .stop)

/-- What PMCR reads (R282). -/
def State.readPmcr (s : State) : Word :=
  bitIf s.pmcr.e 0 ||| bitIf s.pmcr.d 3 ||| bitIf s.pmcr.x 4 ||| bitIf s.pmcr.dp 5
    ||| bitIf s.pmcrNa 8 ||| bitIf s.pmcr.fzo 9 ||| bitIf s.pmcr.hdbg 10 ||| bitIf s.pmcr.tro 11

/-- The stored bits of PMCR after a write: each is replaced only if present (R281). -/
def pmcrStored (c : Cfg) (old : PmcrBits) (v : Word) : PmcrBits where
  e := v.getLsbD 0
  d := if c.cc && c.ccd then v.getLsbD 3 else old.d
  x := if c.ex then v.getLsbD 4 else old.x
  dp := if c.cc then v.getLsbD 5 else old.dp
  fzo := if c.fzo then v.getLsbD 9 else old.fzo
  hdbg := if c.hdbg then v.getLsbD 10 else old.hdbg
  tro := if c.tro then v.getLsbD 11 else old.tro

/-- The resets PMCR.P and PMCR.C ask for are ignored (D22 `NA_BLOCKS_PMCR_RESET`). -/
def State.resetBlocked (s : State) : Bool :=
  s.cfg.naBlocksPmcrReset && s.cfg.na && decide (s.opState ≠ .stop)

/-- A write of PMCR (R281): the stored bits, then P (R296), then C (R297). -/
def State.writePmcr (s : State) (v : Word) : State :=
  let t : State := { s with pmcr := pmcrStored s.cfg s.pmcr v }
  if t.resetBlocked then t
  else
    let u := if v.getLsbD 1 then t.resetMonitors else t
    if v.getLsbD 2 && s.cfg.cc then u.resetCycleCounter else u

/-- PMCR as a location. -/
def pmcrHalf : Half := ⟨State.readPmcr, fun v s => s.writePmcr v⟩

/-- IMPDEF<k> as a location: stored bits under a mask where the configuration defines it, and reserved
where it does not (R310; assumption log 12). -/
def impdefHalf (k : Nat) : Half :=
  ⟨fun s => if (s.cfg.impdefAt k).isSome then s.impdefAt k else 0,
    fun v s => if (s.cfg.impdefAt k).isSome then s.putImpdef k (s.cfg.impdefValue k v) else s⟩

/-- PMCR (R280 to R303). -/
def execPmcr (a : Access) (s : State) : Result := access32 pmcrHalf a s

/-- PMCFGR, in the view of the page accessed (R283, R284). -/
def execPmcfgr (a : Access) (s : State) : Result :=
  access32 (.readOnly (fun t => t.cfg.pmcfgrView (a.page == .p1))) a s

/-- PMCGCR<k> (R305). -/
def execPmcgcr (k : Nat) (a : Access) (s : State) : Result :=
  access32 (.readOnly (fun t => t.cfg.pmcgcr k)) a s

/-- PMCEID<k> (R308). -/
def execPmceid (k : Nat) (a : Access) (s : State) : Result :=
  access32 (.readOnly (fun t => t.cfg.pmceid k)) a s

/-- IMPDEF<k> (R310). -/
def execImpdef (k : Nat) (a : Access) (s : State) : Result :=
  access64 (s.cfg.impdefPair k) (impdefHalf k) (impdefHalf (k + 1))
    (pairWrite (impdefHalf k) (impdefHalf (k + 1))) (.impdef k) (.impdef (k + 1)) a s

end Sys2Proof.Machine
end

