-- ==== Sys2Proof/Machine/Discovery.lean ====
section
/-! DEFINITION. The meanings of the accesses to the identification, discovery and authentication-status
registers (spec 47). Every one is read-only (R370). -/

namespace Sys2Proof.Machine

/-- The two bits of an authentication status field (R376). -/
def Auth.bits : Auth → BitVec 2
  | .notImplemented => 0
  | .disabled => 2
  | .enabled => 3

/-- PMAUTHSTATUS (R376). -/
def State.readAuthstatus (s : State) : Word :=
  let snid := if !s.cfg.secExt && !s.cfg.pmuSecure then 0 else Auth.bits s.env.snid
  let nsnid := if !s.cfg.secExt && s.cfg.pmuSecure then 0 else Auth.bits s.env.nsnid
  (0#24) ++ snid ++ (0#2) ++ nsnid ++ (0#2)

/-- PMDEVAFF bits [31:0] (R386). -/
def devaffLoHalf : Half := .readOnly (fun s => s.cfg.pmdevaff.extractLsb' 0 32)

/-- PMDEVAFF bits [63:32] (R386). -/
def devaffHiHalf : Half := .readOnly (fun s => s.cfg.pmdevaff.extractLsb' 32 32)

/-- PMDEVAFF bits [31:0], and its 64-bit accesses (R382, R386). -/
def execPmdevaffLo (a : Access) (s : State) : Result :=
  access64 true devaffLoHalf devaffHiHalf (fun _ t => t) .pmdevaffLo .pmdevaffHi a s

/-- PMDEVAFF bits [63:32] (R382, R386). -/
def execPmdevaffHi (a : Access) (s : State) : Result := access32 devaffHiHalf a s

/-- PMAUTHSTATUS (R376). -/
def execPmauthstatus (a : Access) (s : State) : Result :=
  access32 (.readOnly State.readAuthstatus) a s

/-- PMDEVARCH, in the view of the page accessed (R378). -/
def execPmdevarch (a : Access) (s : State) : Result :=
  access32 (.readOnly (fun t => t.cfg.pmdevarch (a.page == .p1))) a s

/-- PMDEVID (R379). -/
def execPmdevid (a : Access) (s : State) : Result :=
  access32 (.readOnly (fun t => t.cfg.devid)) a s

/-- PMDEVTYPE, in the view of the page accessed (R380). -/
def execPmdevtype (a : Access) (s : State) : Result :=
  access32 (.readOnly (fun t => t.cfg.pmdevtype (a.page == .p1))) a s

/-- PMIIDR (R390). -/
def execPmiidr (a : Access) (s : State) : Result :=
  access32 (.readOnly (fun t => t.cfg.pmiidr)) a s

/-- PMPIDR4 (R402). -/
def execPmpidr4 (a : Access) (s : State) : Result :=
  access32 (.readOnly (fun t => t.cfg.pidr t.cfg.pidr4)) a s

/-- PMPIDR5 (R403). -/
def execPmpidr5 (a : Access) (s : State) : Result := access32 .res0 a s

/-- PMPIDR6 (R403). -/
def execPmpidr6 (a : Access) (s : State) : Result := access32 .res0 a s

/-- PMPIDR7 (R403). -/
def execPmpidr7 (a : Access) (s : State) : Result := access32 .res0 a s

/-- PMPIDR0 (R396). -/
def execPmpidr0 (a : Access) (s : State) : Result :=
  access32 (.readOnly (fun t => t.cfg.pidr t.cfg.pidr0)) a s

/-- PMPIDR1 (R397). -/
def execPmpidr1 (a : Access) (s : State) : Result :=
  access32 (.readOnly (fun t => t.cfg.pidr t.cfg.pidr1)) a s

/-- PMPIDR2 (R398). -/
def execPmpidr2 (a : Access) (s : State) : Result :=
  access32 (.readOnly (fun t => t.cfg.pidr t.cfg.pidr2)) a s

/-- PMPIDR3 (R399). -/
def execPmpidr3 (a : Access) (s : State) : Result :=
  access32 (.readOnly (fun t => t.cfg.pidr t.cfg.pidr3)) a s

/-- PMCIDR0 (R405). -/
def execPmcidr0 (a : Access) (s : State) : Result :=
  access32 (.readOnly (fun t => t.cfg.pidr 0x0D)) a s

/-- PMCIDR1 (R405). -/
def execPmcidr1 (a : Access) (s : State) : Result :=
  access32 (.readOnly (fun t => t.cfg.pidr 0x90)) a s

/-- PMCIDR2 (R405). -/
def execPmcidr2 (a : Access) (s : State) : Result :=
  access32 (.readOnly (fun t => t.cfg.pidr 0x05)) a s

/-- PMCIDR3 (R405). -/
def execPmcidr3 (a : Access) (s : State) : Result :=
  access32 (.readOnly (fun t => t.cfg.pidr 0xB1)) a s

end Sys2Proof.Machine
end

