-- ==== Sys2Proof/Machine/Monitors.lean ====
section
/-! DEFINITION. The meanings of the accesses to the monitor value and configuration registers (spec 42). -/

namespace Sys2Proof.Machine

/-- PMEVCNTR<n>, up-to-32-bit form (R230). -/
def execPmevcntr (n : Nat) (a : Access) (s : State) : Result := access32 (counter32 n) a s

/-- PMEVCNTR<n>, 64-bit form, bits [31:0], and its 64-bit accesses (R231). -/
def execPmevcntrLo (n : Nat) (a : Access) (s : State) : Result :=
  access64 true (counterLo n) (counterHi n) (counterBoth n) (.pmevcntrLo n) (.pmevcntrHi n) a s

/-- PMEVCNTR<n>, 64-bit form, bits [63:32] (R231). -/
def execPmevcntrHi (n : Nat) (a : Access) (s : State) : Result := access32 (counterHi n) a s

/-- PMCCNTR, 32-bit form: monitor 31 under its second name (R232). -/
def execPmccntr (a : Access) (s : State) : Result :=
  access32 ((counter32 31).onlyIf Cfg.cc) a s

/-- PMCCNTR, 64-bit form, bits [31:0], and its 64-bit accesses (R232). -/
def execPmccntrLo (a : Access) (s : State) : Result :=
  access64 true ((counterLo 31).onlyIf Cfg.cc) ((counterHi 31).onlyIf Cfg.cc)
    (fun v t => if t.cfg.cc then counterBoth 31 v t else t) .pmccntrLo .pmccntrHi a s

/-- PMCCNTR, 64-bit form, bits [63:32] (R232). -/
def execPmccntrHi (a : Access) (s : State) : Result :=
  access32 ((counterHi 31).onlyIf Cfg.cc) a s

/-- PMEVTYPER<n> (R233). -/
def execPmevtyper (n : Nat) (a : Access) (s : State) : Result := access32 (typerHalf n) a s

/-- PMCCFILTR: the event select register of monitor 31 (R235). -/
def execPmccfiltr (a : Access) (s : State) : Result :=
  access32 ((typerHalf 31).onlyIf Cfg.cc) a s

/-- PMEVFILTR<n> (R234). -/
def execPmevfiltr (n : Nat) (a : Access) (s : State) : Result := access32 (filtrHalf n) a s

end Sys2Proof.Machine
end

