-- ==== Sys2Proof/Machine/Msi.lean ====
section
/-! DEFINITION. The meanings of the accesses to the message-signalled interrupt registers (spec 46). The
message write itself, `MsiStart` and `MsiDone`, is in Machine/Ops.lean. -/

namespace Sys2Proof.Machine

/-- What PMIRQCR0 reads; RES0 without `Cfg.MSI` (R353, R360). -/
def State.readIrqcr0 (s : State) : DWord := if s.cfg.msi then s.irqcr0 &&& s.cfg.amask else 0

/-- A write of PMIRQCR0 by an access with this `ns` (R352, R353). -/
def State.writeIrqcr0 (s : State) (ns : Bool) (v : DWord) : State :=
  if s.cfg.msi && !s.addrBlocked ns then { s with irqcr0 := v &&& s.cfg.amask } else s

/-- PMIRQCR0 bits [31:0]: a write leaves the other half as it was (R353). -/
def irqcr0LoHalf (ns : Bool) : Half :=
  ⟨fun s => s.readIrqcr0.extractLsb' 0 32,
    fun v s => if s.cfg.msi && !s.addrBlocked ns then
      { s with irqcr0 := s.irqcr0.extractLsb' 32 32 ++ (v &&& s.cfg.amask.extractLsb' 0 32) } else s⟩

/-- PMIRQCR0 bits [63:32] (R353). -/
def irqcr0HiHalf (ns : Bool) : Half :=
  ⟨fun s => s.readIrqcr0.extractLsb' 32 32,
    fun v s => if s.cfg.msi && !s.addrBlocked ns then
      { s with irqcr0 := (v &&& s.cfg.amask.extractLsb' 32 32) ++ s.irqcr0.extractLsb' 0 32 } else s⟩

/-- PMIRQCR1 (R352, R354). -/
def irqcr1Half (ns : Bool) : Half :=
  ⟨fun s => if s.cfg.msi then s.irqcr1 else 0,
    fun v s => if s.cfg.msi && !s.nsBlocked ns then { s with irqcr1 := v } else s⟩

/-- What PMIRQCR2 reads: each field 0 if it is not implemented (R350, R355). -/
def State.readIrqcr2 (s : State) : Word :=
  if s.cfg.msi then
    bitIf (s.cfg.msiCanDisable && s.irqcr2.msien) 7 ||| bitIf (s.cfg.msiNsCfg && s.irqcr2.nsmsi) 6
      ||| (if s.cfg.msiShCfg then (s.irqcr2.sh.setWidth 32) <<< 4 else 0)
      ||| (if s.cfg.msiAttrCfg then s.irqcr2.memAttr.setWidth 32 else 0)
  else 0

/-- The fields of PMIRQCR2 after a write: a Non-secure write never changes NSMSI (R355, D38). -/
def irqcr2Stored (c : Cfg) (old : Irqcr2Bits) (ns : Bool) (v : Word) : Irqcr2Bits where
  msien := if c.msiCanDisable then v.getLsbD 7 else old.msien
  nsmsi := if c.msiNsCfg && !ns then v.getLsbD 6 else old.nsmsi
  sh := if c.msiShCfg then v.extractLsb' 4 2 else old.sh
  memAttr := if c.msiAttrCfg then v.extractLsb' 0 4 else old.memAttr

/-- PMIRQCR2 (R352, R355). -/
def irqcr2Half (ns : Bool) : Half :=
  ⟨State.readIrqcr2,
    fun v s => if s.cfg.msi && !s.nsBlocked ns then
      { s with irqcr2 := irqcr2Stored s.cfg s.irqcr2 ns v } else s⟩

/-- PMIRQSR bits [31:0]: IRQERR is write-one-to-clear, IRQ is read-only (R356). -/
def irqsrLoHalf (ns : Bool) : Half :=
  ⟨fun s => if s.cfg.msi then bitIf s.irqErr 1 ||| bitIf s.msiBusy 0 else 0,
    fun v s => if s.cfg.msi && !s.nsBlocked ns && v.getLsbD 1 then { s with irqErr := false } else s⟩

/-- PMIRQCR0 bits [31:0], and its 64-bit accesses (R353). -/
def execPmirqcr0Lo (a : Access) (s : State) : Result :=
  access64 true (irqcr0LoHalf a.ns) (irqcr0HiHalf a.ns) (fun v t => t.writeIrqcr0 a.ns v)
    .pmirqcr0Lo .pmirqcr0Hi a s

/-- PMIRQCR0 bits [63:32] (R353). -/
def execPmirqcr0Hi (a : Access) (s : State) : Result := access32 (irqcr0HiHalf a.ns) a s

/-- PMIRQCR1 (R354). -/
def execPmirqcr1 (a : Access) (s : State) : Result := access32 (irqcr1Half a.ns) a s

/-- PMIRQCR2 (R355). -/
def execPmirqcr2 (a : Access) (s : State) : Result := access32 (irqcr2Half a.ns) a s

/-- PMIRQSR bits [31:0], and its 64-bit accesses (R356). -/
def execPmirqsrLo (a : Access) (s : State) : Result :=
  access64 true (irqsrLoHalf a.ns) .res0 (fun v t => (irqsrLoHalf a.ns).wr (v.extractLsb' 0 32) t)
    .pmirqsrLo .pmirqsrHi a s

/-- PMIRQSR bits [63:32]: RES0 (R356). -/
def execPmirqsrHi (a : Access) (s : State) : Result := access32 .res0 a s

end Sys2Proof.Machine
end

