-- ==== Sys2Proof/Machine/SetClear.lean ====
section
/-! DEFINITION. The meanings of the accesses to the six set and clear arrays (spec 43). Each acts in its own
step in every operating state. -/

namespace Sys2Proof.Machine

/-- PMCNTENSET<m> (R265). -/
def execPmcntenset (m : Nat) (a : Access) (s : State) : Result :=
  access64 (s.cfg.setClearPair m) (cntenSetHalf m) (cntenSetHalf (m + 1))
    (pairWrite (cntenSetHalf m) (cntenSetHalf (m + 1))) (.pmcntenset m) (.pmcntenset (m + 1)) a s

/-- PMCNTENCLR<m> (R266). -/
def execPmcntenclr (m : Nat) (a : Access) (s : State) : Result :=
  access64 (s.cfg.setClearPair m) (cntenClrHalf m) (cntenClrHalf (m + 1))
    (pairWrite (cntenClrHalf m) (cntenClrHalf (m + 1))) (.pmcntenclr m) (.pmcntenclr (m + 1)) a s

/-- PMINTENSET<m> (R267). -/
def execPmintenset (m : Nat) (a : Access) (s : State) : Result :=
  access64 (s.cfg.setClearPair m) (intenSetHalf m) (intenSetHalf (m + 1))
    (pairWrite (intenSetHalf m) (intenSetHalf (m + 1))) (.pmintenset m) (.pmintenset (m + 1)) a s

/-- PMINTENCLR<m> (R268). -/
def execPmintenclr (m : Nat) (a : Access) (s : State) : Result :=
  access64 (s.cfg.setClearPair m) (intenClrHalf m) (intenClrHalf (m + 1))
    (pairWrite (intenClrHalf m) (intenClrHalf (m + 1))) (.pmintenclr m) (.pmintenclr (m + 1)) a s

/-- PMOVSCLR<m> (R271). -/
def execPmovsclr (m : Nat) (a : Access) (s : State) : Result :=
  access64 (s.cfg.setClearPair m) (ovsClrHalf m) (ovsClrHalf (m + 1))
    (pairWrite (ovsClrHalf m) (ovsClrHalf (m + 1))) (.pmovsclr m) (.pmovsclr (m + 1)) a s

/-- PMOVSSET<m> (R270). -/
def execPmovsset (m : Nat) (a : Access) (s : State) : Result :=
  access64 (s.cfg.setClearPair m) (ovsSetHalf m) (ovsSetHalf (m + 1))
    (pairWrite (ovsSetHalf m) (ovsSetHalf (m + 1))) (.pmovsset m) (.pmovsset (m + 1)) a s

end Sys2Proof.Machine
end

