-- ==== Sys2Proof/Machine/Dispatch.lean ====
section
/-! DEFINITION. The meaning of every instruction, one arm each. -/

namespace Sys2Proof.Machine

def exec (i : Instr) (s : State) : Host.Outcome State Fault Refusal :=
  match i with
  | .pmevcntr n a => Sys2Proof.Machine.execPmevcntr n a s
  | .pmevcntrLo n a => Sys2Proof.Machine.execPmevcntrLo n a s
  | .pmevcntrHi n a => Sys2Proof.Machine.execPmevcntrHi n a s
  | .pmccntr a => Sys2Proof.Machine.execPmccntr a s
  | .pmccntrLo a => Sys2Proof.Machine.execPmccntrLo a s
  | .pmccntrHi a => Sys2Proof.Machine.execPmccntrHi a s
  | .pmevtyper n a => Sys2Proof.Machine.execPmevtyper n a s
  | .pmccfiltr a => Sys2Proof.Machine.execPmccfiltr a s
  | .pmsvr k a => Sys2Proof.Machine.execPmsvr k a s
  | .pmsssr a => Sys2Proof.Machine.execPmsssr a s
  | .pmovssr m a => Sys2Proof.Machine.execPmovssr m a s
  | .pmevfiltr n a => Sys2Proof.Machine.execPmevfiltr n a s
  | .pmcntenset m a => Sys2Proof.Machine.execPmcntenset m a s
  | .pmcntenclr m a => Sys2Proof.Machine.execPmcntenclr m a s
  | .pmintenset m a => Sys2Proof.Machine.execPmintenset m a s
  | .pmintenclr m a => Sys2Proof.Machine.execPmintenclr m a s
  | .pmovsclr m a => Sys2Proof.Machine.execPmovsclr m a s
  | .pmovsset m a => Sys2Proof.Machine.execPmovsset m a s
  | .pmcgcr k a => Sys2Proof.Machine.execPmcgcr k a s
  | .impdef k a => Sys2Proof.Machine.execImpdef k a s
  | .pmcfgr a => Sys2Proof.Machine.execPmcfgr a s
  | .pmcr a => Sys2Proof.Machine.execPmcr a s
  | .pmiidr a => Sys2Proof.Machine.execPmiidr a s
  | .pmceid k a => Sys2Proof.Machine.execPmceid k a s
  | .pmsscr a => Sys2Proof.Machine.execPmsscr a s
  | .pmssrrLo a => Sys2Proof.Machine.execPmssrrLo a s
  | .pmssrrHi a => Sys2Proof.Machine.execPmssrrHi a s
  | .pmirqcr0Lo a => Sys2Proof.Machine.execPmirqcr0Lo a s
  | .pmirqcr0Hi a => Sys2Proof.Machine.execPmirqcr0Hi a s
  | .pmirqcr1 a => Sys2Proof.Machine.execPmirqcr1 a s
  | .pmirqcr2 a => Sys2Proof.Machine.execPmirqcr2 a s
  | .pmirqsrLo a => Sys2Proof.Machine.execPmirqsrLo a s
  | .pmirqsrHi a => Sys2Proof.Machine.execPmirqsrHi a s
  | .pmdevaffLo a => Sys2Proof.Machine.execPmdevaffLo a s
  | .pmdevaffHi a => Sys2Proof.Machine.execPmdevaffHi a s
  | .pmauthstatus a => Sys2Proof.Machine.execPmauthstatus a s
  | .pmdevarch a => Sys2Proof.Machine.execPmdevarch a s
  | .pmdevid a => Sys2Proof.Machine.execPmdevid a s
  | .pmdevtype a => Sys2Proof.Machine.execPmdevtype a s
  | .pmpidr4 a => Sys2Proof.Machine.execPmpidr4 a s
  | .pmpidr5 a => Sys2Proof.Machine.execPmpidr5 a s
  | .pmpidr6 a => Sys2Proof.Machine.execPmpidr6 a s
  | .pmpidr7 a => Sys2Proof.Machine.execPmpidr7 a s
  | .pmpidr0 a => Sys2Proof.Machine.execPmpidr0 a s
  | .pmpidr1 a => Sys2Proof.Machine.execPmpidr1 a s
  | .pmpidr2 a => Sys2Proof.Machine.execPmpidr2 a s
  | .pmpidr3 a => Sys2Proof.Machine.execPmpidr3 a s
  | .pmcidr0 a => Sys2Proof.Machine.execPmcidr0 a s
  | .pmcidr1 a => Sys2Proof.Machine.execPmcidr1 a s
  | .pmcidr2 a => Sys2Proof.Machine.execPmcidr2 a s
  | .pmcidr3 a => Sys2Proof.Machine.execPmcidr3 a s

end Sys2Proof.Machine
end

