-- ==== Sys2Proof/Machine/Bus.lean ====
section
/-! DEFINITION. The arrival of accesses at the register interface (R72, R73, R84, R89), the second halves of
split accesses (R78), and which step is taken next (R14). -/

namespace Sys2Proof.Machine

/-- How many bytes an access has (R70). -/
def accBytes (op : AccOp) : Nat := if op.is64 then 8 else 4

/-- A field of a gate's term admits a value: it is left open or it is that value. -/
def admitsField (field : Option Bool) (b : Bool) : Bool :=
  match field with
  | some c => c == b
  | none => true

/-- The term forbids this access in this environment (R89). -/
def gateForbids (d : Deny) (env : Env) (r : RawAccess) : Bool :=
  (List.range (accBytes r.access.op)).any (fun b => decide (d.lo ≤ r.off + b ∧ r.off + b ≤ d.hi))
    && admitsField d.page1 (r.access.page == .p1) && admitsField d.ns r.access.ns && admitsField d.write r.access.op.isWrite
    && admitsField d.wide r.access.op.is64 && (valueField r.access.op &&& d.valueMask) == d.valueIs
    && d.envIs.all (fun p => env.bit p.1 == p.2)

/-- `Cfg.accessGate(access, env)` is false (R8, R89). -/
def State.gated (s : State) (r : RawAccess) : Bool := s.cfg.gate.any (fun d => gateForbids d s.env r)

/-- A 32-bit access to a reserved location: reads 0, writes ignored (R82). -/
def State.reservedAccess (s : State) (a : Access) : State :=
  if a.op.isWrite then s.answer .done else s.answer (.data32 0)

/-- An access arrives (R84): it is decoded and, unless it is none or is gated, runs in one step. -/
def State.arrive (s : State) (frame : List Byte) : Result :=
  match parseFrame frame with
  | .error e => .refused (.badAccess e)
  | .ok r =>
    if s.gated r then .refused .accessGated
    else
      match decodeRaw s.cfg r with
      | .error e => .refused (.badAccess e)
      | .ok (.instr i) => exec i s
      | .ok (.reserved a) => .next (s.reservedAccess a)

/-- The answer of a split access, from its first half and the answer of its second (R71, R78). -/
def Split.join (p : Split) (r : Resp) : Resp :=
  match r with
  | .data32 w => .data64 (if p.firstHi then p.firstWord ++ w else w ++ p.firstWord)
  | .none => .none
  | .data64 d => .data64 d
  | .done => .done
  | .split => .split

/-- The other half of the k-th outstanding split access (R78); nothing if there is none. -/
def State.finishSplit (s : State) (k : Nat) : Result :=
  match s.splits[k]? with
  | some p =>
    match exec p.second { s with splits := s.splits.eraseIdx k } with
    | .next t => .next (t.answer (p.join t.resp))
    | .fault r => .fault r
    | .refused r => .refused r
  | none => .next s

/-- One step of one agent (R14, R140). -/
def State.take (s : State) (i : Input) : Result :=
  match i with
  | .access frame => s.arrive frame
  | .splitHalf k => s.finishSplit k
  | .settle => .next s.settle
  | .count n e => .next (s.count n e)
  | .monitorUpdate n v ovf e => .next (s.monitorUpdate n v ovf e)
  | .takeEffect r => .next (s.takeEffect r)
  | .cycle c => .next (s.cycle c)
  | .chainLo n => .next (s.chainLo n)
  | .snapReq => .next s.snapReq
  | .msiStart => .next s.msiStart
  | .msiDone err => .next (s.msiDone err)
  | .msiArrive => .next s.msiArrive
  | .strayEnd k reaches => .next (s.strayEnd k reaches)
  | .reset => .next s.resetStep
  | .setEnv env => .next { s with env := env }

/-- With no input left, the first of the weakly fair steps that is enabled (R78, R86, R143, R204, R358,
R359): this is how "finite time" is kept when the environment is quiet (assumption log 8). -/
def State.idle (s : State) : Result :=
  if s.splits ≠ [] then s.finishSplit 0
  else
    match s.lowPend with
    | (n, _) :: _ => .next (s.chainLo n)
    | [] =>
      match s.pend with
      | p :: _ => .next (s.takeEffect p.reg)
      | [] =>
        if s.st ≠ s.opState then .next s.settle
        else if s.msiBusy then .next (s.used.msiDone (s.drawn.getLsbD 0))
        else .next s.msiStart

/-- The next step of the machine: the next input's, or an idle one. -/
def State.advance (s : State) : Result :=
  match s.inputs with
  | i :: rest => State.take { s with inputs := rest } i
  | [] => s.idle

/-- What follows every step of any agent (R358). -/
def afterStep : Result → Result
  | .next t => .next t.rearm
  | .fault r => .fault r
  | .refused r => .refused r

end Sys2Proof.Machine
end

