-- ==== Sys2Proof/Machine/Step.lean ====
section
/-! DEFINITION. One step of the machine, and where the next instruction is fetched from: the head of the
list of inputs. -/

namespace Sys2Proof.Machine

/-- One step: an ill-formed configuration is refused (R8, D3); otherwise the next agent's step is taken and
the interrupt message re-armed if its condition is false (R358). -/
def step (s : State) : Host.Outcome State Fault Refusal :=
  if s.cfg.wf then afterStep s.advance else .refused .illFormedConfig

/-- The state whose very next step performs the access with these bits (assumption log 5). -/
def State.withFetchWord (s : State) (nbits w : Nat) : State :=
  { s with inputs := .access (tableFrame nbits w) :: s.inputs }

end Sys2Proof.Machine
end

