-- ==== Sys2Proof/Safety.lean ====
section
/-! DEFINITION. What a safe state is: the invariants of spec 70 R466, with the canonical form of every
sparse table; and the terms claims are made in: unchanged system memory, the steps of the PMU core, the
read-only registers, the two halves of a 64-bit access. -/

namespace Sys2Proof

open Sys2Proof.Machine

/-- A value fits a monitor register: a counter's width, a configuration register's fixed bits. -/
def Cfg.fits (c : Cfg) (v : DWord) : MonReg → Prop
  | .cntr n => v.toNat < 2 ^ c.width n
  | .typer n => ∀ m, c.mon n = some m → m.hasTyper = true →
      v.setWidth 32 &&& ~~~m.typerMask = m.typerFixed &&& ~~~m.typerMask
  | .filtr n => ∀ m, c.mon n = some m → m.hasFiltr = true →
      v.setWidth 32 &&& ~~~m.filtrMask = m.filtrFixed &&& ~~~m.filtrMask

/-- R466 (4): a PMCR control bit whose feature is not implemented is 0. -/
structure PmcrInv (c : Cfg) (p : PmcrBits) : Prop where
  d : p.d = true → c.cc = true ∧ c.ccd = true
  x : p.x = true → c.ex = true
  dp : p.dp = true → c.cc = true
  fzo : p.fzo = true → c.fzo = true
  hdbg : p.hdbg = true → c.hdbg = true
  tro : p.tro = true → c.tro = true

/-- R466 (11), PMIRQCR2: no bit outside its implemented fields. -/
structure Irqcr2Inv (c : Cfg) (p : Irqcr2Bits) : Prop where
  msien : p.msien = true → c.msiCanDisable = true
  nsmsi : p.nsmsi = true → c.msiNsCfg = true
  sh : c.msiShCfg = false → p.sh = 0
  memAttr : c.msiAttrCfg = false → p.memAttr = 0

/-- Every sparse table is in its canonical form. -/
structure TablesWf (s : State) : Prop where
  x : Sparse.wf 0 s.x = true
  typer : Sparse.wf 0 s.typer = true
  filtr : Sparse.wf 0 s.filtr = true
  svr : Sparse.wf 0 s.svr = true
  impdef : Sparse.wf 0 s.impdef = true
  lowPend : Sparse.wf 0 s.lowPend = true
  memS : Memory.wf s.memS = true
  memNS : Memory.wf s.memNS = true

/-- The state invariants of R466. That an entry of `pend` was accepted outside STOP (item 6) is said of its past,
and R236 excepts a STOP that has not settled (assumption log 11). -/
structure Inv (s : State) : Prop where
  /-- (1) -/
  values : ∀ n, (s.xAt n).toNat < 2 ^ s.cfg.width n
  /-- (2) -/
  enables : ∀ n, s.cnten.getLsbD n = true → s.cfg.impl n = true
  /-- (3) -/
  intens : ∀ n, s.inten.getLsbD n = true → s.cfg.hasFlag n = true
  /-- (3) -/
  flags : ∀ n, s.ovs.getLsbD n = true → s.cfg.hasFlag n = true
  /-- (4) -/
  pmcr : PmcrInv s.cfg s.pmcr
  /-- (5) -/
  wait : s.st = .wait → s.cfg.fzo = true
  /-- (6): a monitor register that cannot be written outside STOP has no write in waiting -/
  noPend : s.cfg.na = true → s.pend = []
  /-- (6), and that what is pending fits its register -/
  pend : ∀ p ∈ s.pend, p.reg.writable s.cfg = true ∧ s.cfg.fits p.val p.reg
  /-- (7) -/
  low : ∀ n, s.lowAt n ≠ 0 → s.cfg.chain = true ∧ s.cfg.chainAtomic = false ∧ n % 2 = 0
    ∧ s.cfg.hasFlag n = true
  /-- (8) -/
  busy : s.msiBusy = true → s.cfg.msi = true
  /-- the model's own: a write that has not reached its target yet is still in progress -/
  flight : s.flight.isSome = true → s.msiBusy = true
  /-- (9) -/
  presc : s.cfg.ccd = false → s.presc = 0
  /-- (10) -/
  ssr : s.svrAt s.cfg.ssrIdx &&& ~~~1 = 0
  /-- (11) -/
  addr : s.irqcr0 &&& ~~~s.cfg.amask = 0
  /-- (11) -/
  ssrr : s.pmssrr &&& ~~~s.cfg.rpmask = 0
  /-- (11) -/
  irqcr2 : Irqcr2Inv s.cfg s.irqcr2
  /-- (12) -/
  typer : ∀ n, s.cfg.fits ((s.typerAt n).setWidth 64) (.typer n)
  /-- (12) -/
  filtr : ∀ n, s.cfg.fits ((s.filtrAt n).setWidth 64) (.filtr n)
  /-- the canonical forms -/
  tables : TablesWf s

/-- Every byte of both system address spaces reads the same. -/
def SameMemory (s t : State) : Prop :=
  ∀ a, readByte t.memS a = readByte s.memS a ∧ readByte t.memNS a = readByte s.memNS a

/-- `t` has the system memory of `s` after the message write `m`: its four bytes, the least significant lowest,
in its address space, and every other byte of both spaces as it was. -/
def Landed (s t : State) (m : MsiMsg) : Prop :=
  ∀ a, readByte (if m.ns then t.memNS else t.memS) a
      = (if m.addr.toNat ≤ a ∧ a < m.addr.toNat + 4 then m.data.extractLsb' (8 * (a - m.addr.toNat)) 8
        else readByte (if m.ns then s.memNS else s.memS) a)
    ∧ readByte (if m.ns then t.memS else t.memNS) a = readByte (if m.ns then s.memS else s.memNS) a

/-- A step of the PMU core (R140) or of a message write it issued (R93, R461), its reset apart. -/
def Machine.Input.isCore : Input → Bool
  | .settle | .count _ _ | .monitorUpdate _ _ _ _ | .takeEffect _ | .cycle _ | .chainLo _ | .snapReq
  | .msiStart | .msiDone _ | .msiArrive | .strayEnd _ _ => true
  | .access _ | .splitHalf _ | .reset | .setEnv _ => false

/-- The registers whose writes are ignored in every state (R32, R330, R335, R340, R370). -/
def Instr.isReadOnly : Instr → Bool
  | .pmsvr _ _ | .pmsssr _ | .pmovssr _ _ | .pmcgcr _ _ | .pmcfgr _ | .pmiidr _ | .pmceid _ _
  | .pmirqsrHi _ | .pmdevaffLo _ | .pmdevaffHi _ | .pmauthstatus _ | .pmdevarch _ | .pmdevid _
  | .pmdevtype _ | .pmpidr4 _ | .pmpidr5 _ | .pmpidr6 _ | .pmpidr7 _ | .pmpidr0 _ | .pmpidr1 _
  | .pmpidr2 _ | .pmpidr3 _ | .pmcidr0 _ | .pmcidr1 _ | .pmcidr2 _ | .pmcidr3 _ => true
  | .pmevcntr _ _ | .pmevcntrLo _ _ | .pmevcntrHi _ _ | .pmccntr _ | .pmccntrLo _ | .pmccntrHi _
  | .pmevtyper _ _ | .pmccfiltr _ | .pmevfiltr _ _ | .pmcntenset _ _ | .pmcntenclr _ _
  | .pmintenset _ _ | .pmintenclr _ _ | .pmovsclr _ _ | .pmovsset _ _ | .impdef _ _ | .pmcr _
  | .pmsscr _ | .pmssrrLo _ | .pmssrrHi _ | .pmirqcr0Lo _ | .pmirqcr0Hi _ | .pmirqcr1 _
  | .pmirqcr2 _ | .pmirqsrLo _ => false

/-- The same register with another form of access. -/
def Instr.withOp (i : Instr) (op : AccOp) : Instr :=
  let a (b : Access) : Access := { b with op := op }
  match i with
  | .pmevcntr n b => .pmevcntr n (a b)
  | .pmevcntrLo n b => .pmevcntrLo n (a b)
  | .pmevcntrHi n b => .pmevcntrHi n (a b)
  | .pmccntr b => .pmccntr (a b)
  | .pmccntrLo b => .pmccntrLo (a b)
  | .pmccntrHi b => .pmccntrHi (a b)
  | .pmevtyper n b => .pmevtyper n (a b)
  | .pmccfiltr b => .pmccfiltr (a b)
  | .pmsvr k b => .pmsvr k (a b)
  | .pmsssr b => .pmsssr (a b)
  | .pmovssr m b => .pmovssr m (a b)
  | .pmevfiltr n b => .pmevfiltr n (a b)
  | .pmcntenset m b => .pmcntenset m (a b)
  | .pmcntenclr m b => .pmcntenclr m (a b)
  | .pmintenset m b => .pmintenset m (a b)
  | .pmintenclr m b => .pmintenclr m (a b)
  | .pmovsclr m b => .pmovsclr m (a b)
  | .pmovsset m b => .pmovsset m (a b)
  | .pmcgcr k b => .pmcgcr k (a b)
  | .impdef k b => .impdef k (a b)
  | .pmcfgr b => .pmcfgr (a b)
  | .pmcr b => .pmcr (a b)
  | .pmiidr b => .pmiidr (a b)
  | .pmceid k b => .pmceid k (a b)
  | .pmsscr b => .pmsscr (a b)
  | .pmssrrLo b => .pmssrrLo (a b)
  | .pmssrrHi b => .pmssrrHi (a b)
  | .pmirqcr0Lo b => .pmirqcr0Lo (a b)
  | .pmirqcr0Hi b => .pmirqcr0Hi (a b)
  | .pmirqcr1 b => .pmirqcr1 (a b)
  | .pmirqcr2 b => .pmirqcr2 (a b)
  | .pmirqsrLo b => .pmirqsrLo (a b)
  | .pmirqsrHi b => .pmirqsrHi (a b)
  | .pmdevaffLo b => .pmdevaffLo (a b)
  | .pmdevaffHi b => .pmdevaffHi (a b)
  | .pmauthstatus b => .pmauthstatus (a b)
  | .pmdevarch b => .pmdevarch (a b)
  | .pmdevid b => .pmdevid (a b)
  | .pmdevtype b => .pmdevtype (a b)
  | .pmpidr4 b => .pmpidr4 (a b)
  | .pmpidr5 b => .pmpidr5 (a b)
  | .pmpidr6 b => .pmpidr6 (a b)
  | .pmpidr7 b => .pmpidr7 (a b)
  | .pmpidr0 b => .pmpidr0 (a b)
  | .pmpidr1 b => .pmpidr1 (a b)
  | .pmpidr2 b => .pmpidr2 (a b)
  | .pmpidr3 b => .pmpidr3 (a b)
  | .pmcidr0 b => .pmcidr0 (a b)
  | .pmcidr1 b => .pmcidr1 (a b)
  | .pmcidr2 b => .pmcidr2 (a b)
  | .pmcidr3 b => .pmcidr3 (a b)

/-- The register at the upper word of a 64-bit access to `i`, with the same access: the high half of a 64-bit
register, or the next register of an array (R71, R77, R310, R336); `i` itself where `i` admits no 64-bit
access. -/
def Instr.upper (c : Cfg) (i : Instr) : Instr :=
  match i with
  | .pmevcntrLo n a => .pmevcntrHi n a
  | .pmccntrLo a => .pmccntrHi a
  | .pmsvr k a => .pmsvr (k + 1) a
  | .pmsssr a => .pmsvr (c.ssrIdx + 1) a
  | .pmovssr m a => .pmsvr (c.slotIdx (.ovs m) + 1) a
  | .pmcntenset m a => .pmcntenset (m + 1) a
  | .pmcntenclr m a => .pmcntenclr (m + 1) a
  | .pmintenset m a => .pmintenset (m + 1) a
  | .pmintenclr m a => .pmintenclr (m + 1) a
  | .pmovsclr m a => .pmovsclr (m + 1) a
  | .pmovsset m a => .pmovsset (m + 1) a
  | .impdef k a => .impdef (k + 1) a
  | .pmssrrLo a => .pmssrrHi a
  | .pmirqcr0Lo a => .pmirqcr0Hi a
  | .pmirqsrLo a => .pmirqsrHi a
  | .pmdevaffLo a => .pmdevaffHi a
  | .pmevcntr _ _ | .pmevcntrHi _ _ | .pmccntr _ | .pmccntrHi _ | .pmevtyper _ _ | .pmccfiltr _
  | .pmevfiltr _ _ | .pmcgcr _ _ | .pmcfgr _ | .pmcr _ | .pmiidr _ | .pmceid _ _ | .pmsscr _
  | .pmssrrHi _ | .pmirqcr0Hi _ | .pmirqcr1 _ | .pmirqcr2 _ | .pmirqsrHi _ | .pmdevaffHi _
  | .pmauthstatus _ | .pmdevarch _ | .pmdevid _ | .pmdevtype _ | .pmpidr4 _ | .pmpidr5 _
  | .pmpidr6 _ | .pmpidr7 _ | .pmpidr0 _ | .pmpidr1 _ | .pmpidr2 _ | .pmpidr3 _ | .pmcidr0 _
  | .pmcidr1 _ | .pmcidr2 _ | .pmcidr3 _ => i

/-- `t` is `s` after a write that stored `v`, reduced to w(n) bits, in monitor n: nothing is pending for it, the
other monitors are as they were, and a held-back chained update of n has gone first, with its flag (R204,
assumption log 30).
Only a write of the cycle counter leaves the prescaler phase open (R193). -/
def CounterStored (s t : State) (n v : Nat) : Prop :=
  t.xAt n = s.cfg.wrap n v ∧ t.readMonitorReg (.cntr n) = s.cfg.wrap n v
    ∧ (∀ k, k ≠ n → t.xAt k = s.xAt k)
    ∧ (∀ k, t.ovsBit k = (s.ovsBit k || (decide (k = n ∧ k < 256) && decide (s.lowAt n ≠ 0))))
    ∧ t.lowAt n = 0 ∧ (∀ k, k ≠ n → t.lowAt k = s.lowAt k)
    ∧ (s.cfg.isCycle n = false → t.presc = s.presc ∧ t.draws = s.draws)
    ∧ t = { s with
        x := t.x, ovs := t.ovs, lowPend := t.lowPend, presc := t.presc, draws := t.draws
        pend := s.pend.filter (fun p => decide (p.reg ≠ .cntr n)), resp := .done }

/-- `t` is `s` with the write of `v` to `r` accepted but not yet in effect: the next read of `r` through the
interface returns `v`, and every stored value is as it was. -/
def WritePending (s t : State) (r : MonReg) (v : DWord) : Prop :=
  t.readMonitorReg r = v ∧ (∀ q, q ≠ r → t.readMonitorReg q = s.readMonitorReg q)
    ∧ (r ≠ .cntr 31 → t.presc = s.presc ∧ t.draws = s.draws)
    ∧ t = { s with
        pend := s.pend ++ [⟨r, v⟩], presc := t.presc, draws := t.draws, resp := .done }

/-- A write of a monitor register acts at once: the PMU is in STOP, and has settled there or may be written in no
other state (R236, R242, assumption log 11). -/
def Machine.State.stopped (s : State) : Prop := s.opState = .stop ∧ (s.cfg.na = true ∨ s.st = .stop)

/-- A write of a monitor register is accepted but waits: it may be written in every state, and the PMU is not in
STOP or has not settled there (R236, R242). -/
def Machine.State.defers (s : State) : Prop :=
  s.cfg.na = false ∧ ¬ (s.opState = .stop ∧ s.st = .stop)

/-- A write of this monitor register is ignored: it is not writable, or may not be written outside STOP
(R85). -/
def Machine.State.ignores (s : State) (r : MonReg) : Prop :=
  r.writable s.cfg = false ∨ (s.cfg.na = true ∧ s.opState ≠ .stop)

/-- Register m of a set array written with `v`: bit q of `v` sets bit q + 32m of the vector where that bit is
present, and every other bit is as it was (R261). -/
def SetsBits (old new : Vec) (m : Nat) (v : Word) (present : Nat → Bool) : Prop :=
  ∀ n, n < 256 → new.getLsbD n
    = (old.getLsbD n || (decide (n / 32 = m) && v.getLsbD (n % 32) && present n))

/-- Register m of a clear array written with `v`: bit q of `v` clears bit q + 32m (R261). -/
def ClearsBits (old new : Vec) (m : Nat) (v : Word) : Prop :=
  ∀ n, n < 256 → new.getLsbD n = (old.getLsbD n && !(decide (n / 32 = m) && v.getLsbD (n % 32)))

/-- `k` steps of the machine, where none of them is refused. -/
def Machine.State.steps : Nat → State → Option State
  | 0, s => some s
  | k + 1, s =>
    match step s with
    | .next t => Machine.State.steps k t
    | .fault _ => none
    | .refused _ => none

/-- PMSSRR selects monitor m for the reset that follows a capture (R212). -/
def Machine.State.resetOnCapture (s : State) (m : Nat) : Bool :=
  s.cfg.ssrr && s.pmssrr.getLsbD m && s.cfg.impl m

/-- `t` is `s` after a successful capture (R211, R212): every saved value that is mapped has what the map says
it has, of `s`; then the selected monitors and their flags are zero, and no other is. -/
def Captured (s t : State) : Prop :=
  (∀ k, k < 64 → match s.cfg.svrSlot k with
    | .counterLo n => t.svrAt k = (s.xAt n).extractLsb' 0 32
    | .counterHi n => t.svrAt k = (s.xAt n).extractLsb' 32 32
    | .ovs m => ∀ q, q < 32 → (t.svrAt k).getLsbD q = s.ovs.getLsbD (32 * m + q)
    | .ssr => t.svrAt k = 0
    | .syndrome _ => True
    | .unused => t.svrAt k = s.svrAt k)
  ∧ (∀ m, t.xAt m = if s.resetOnCapture m then 0 else s.xAt m)
  ∧ (∀ m, t.ovsBit m = (s.ovsBit m && !s.resetOnCapture m))
  ∧ (∀ m, t.lowAt m = if s.resetOnCapture m then 0 else s.lowAt m)

/-- What register m of a set or a clear array reads (R261). -/
def ShowsBits (w : Word) (vec : Vec) (m : Nat) (present : Nat → Bool) : Prop :=
  ∀ q, q < 32 → w.getLsbD q = (vec.getLsbD (32 * m + q) && present (32 * m + q))

end Sys2Proof
end

