-- ==== Sys2Proof/Certificates/Slice0/Obligations.lean ====
section
/-! DEFINITION. The statements for the provers, in the order of OBLIGATIONS.json: the encoding, the register
interface, the monitors, the set and clear registers, the control and snapshot registers, the interrupt
message, the steps of the PMU core, reset, and the identification registers. -/

open Sys2Proof Sys2Proof.Machine

/-! ### The encoding -/

/-- Decoding the frame of a well-formed instruction gives the instruction back (spec 30 sections 1 to 5; the
frame's layout is assumption log 5). -/
def Obligations.DecodeReturnsEncodedInstruction : Prop :=
  ∀ (c : Cfg) (i : Instr), i.wf c = true → decode c (encode c i) = .ok (.instr i)

/-- Each frame that decodes to an instruction is the frame of that instruction, which is well formed: no two
frames stand for one access (spec 30 sections 2 to 6; assumption log 5). -/
def Obligations.EncodeReturnsDecodedFrame : Prop :=
  ∀ (c : Cfg) (frame : List Byte) (i : Instr), c.wf = true → decode c frame = .ok (.instr i) →
    i.wf c = true ∧ encode c i = frame

/-- A word of each of six families decodes to the register that R112 and R113 give its offset, under the
configuration of `State.reset` (assumption log 2). -/
def Obligations.TableWordsDecode : Prop :=
  decodeTableWord 16 0x0008 = some (.pmevcntrLo 1 ⟨.p0, false, .rd32⟩)
    ∧ decodeTableWord 16 0x0C04 = some (.pmcntenset 1 ⟨.p0, false, .rd32⟩)
    ∧ decodeTableWord 16 0x0E04 = some (.pmcr ⟨.p0, false, .rd32⟩)
    ∧ decodeTableWord 16 0x0E30 = some (.pmsscr ⟨.p0, false, .rd32⟩)
    ∧ decodeTableWord 16 0x0E8C = some (.pmirqcr2 ⟨.p0, false, .rd32⟩)
    ∧ decodeTableWord 16 0x0FBC = some (.pmdevarch ⟨.p0, false, .rd32⟩)

/-! ### The register interface -/

/-- A step whose input is an access that decodes to `i` and is not gated runs `i` on the state without that
input, and then re-arms the interrupt message if its condition is false (`afterStep`). -/
def Obligations.StepRunsDecodedInstruction : Prop :=
  ∀ (s : State) (i : Instr) (frame : List Byte) (rest : List Input),
    s.cfg.wf = true → s.inputs = .access frame :: rest → decode s.cfg frame = .ok (.instr i) →
    (∀ r, parseFrame frame = .ok r → s.gated r = false) →
    step s = afterStep (exec i { s with inputs := rest })

/-- Which accesses are refused. One the decoder rejects; and it rejects one whose frame says 8 or 16 bits or an
offset that is not word aligned (this clause is about the model's own frame: the place of its size bit and of its
offset bytes is the model's choice, assumption log 5). A 64-bit access to a register that does not support it
(spec 20 section 2; refusing these is the spec's decision D29). And one that the access gate forbids (R89): the
gate forbids it exactly if some term of it has a byte of the access in its range, agrees with the page, security,
direction, size and written value of the access in each field it fixes, and has its environment conditions met
(the gate as a list of such terms is the model's choice, assumption log 15). -/
def Obligations.UnsupportedAndGatedAccessesRefused : Prop :=
  (∀ (s : State) (e : DecodeError) (frame : List Byte) (rest : List Input),
    s.cfg.wf = true → s.inputs = .access frame :: rest → decode s.cfg frame = .error e →
    (∀ r, parseFrame frame = .ok r → s.gated r = false) →
    step s = .refused (.badAccess e))
  ∧ (∀ (c : Cfg) (b0 b1 b2 b3 v0 v1 v2 v3 v4 v5 v6 v7 : Byte),
    b2.getLsbD 3 = true ∨ b0.getLsbD 0 = true ∨ b0.getLsbD 1 = true →
    ∃ e, decode c [b0, b1, b2, b3, v0, v1, v2, v3, v4, v5, v6, v7] = .error e)
  ∧ (∀ (i : Instr) (s : State), i.access.op.is64 = true → i.supports64 s.cfg = false →
    exec i s = .refused .unsupportedAccess)
  ∧ (∀ (s : State) (r : RawAccess) (frame : List Byte) (rest : List Input),
    s.cfg.wf = true → s.inputs = .access frame :: rest → parseFrame frame = .ok r → s.gated r = true →
    step s = .refused .accessGated)
  ∧ (∀ (s : State) (r : RawAccess), s.gated r = true ↔ ∃ d ∈ s.cfg.gate,
    (∃ b, r.off ≤ b ∧ b < r.off + (if r.access.op.is64 then 8 else 4) ∧ d.lo ≤ b ∧ b ≤ d.hi)
    ∧ (∀ x, d.page1 = some x → (x = true ↔ r.access.page = .p1))
    ∧ (∀ x, d.ns = some x → x = r.access.ns) ∧ (∀ x, d.write = some x → x = r.access.op.isWrite)
    ∧ (∀ x, d.wide = some x → x = r.access.op.is64)
    ∧ valueField r.access.op &&& d.valueMask = d.valueIs
    ∧ ∀ p ∈ d.envIs, s.env.bit p.1 = p.2)

/-- An access to a reserved location reads zero or is ignored, and changes nothing else (spec 20 section 4; zero
is the spec's decision D9). Reserved are the holes of the map, 0x800-0x9FC, 0xCA0-0xCBC, 0xCF0-0xD7C, 0xE0C-0xE1C,
0xE34, 0xE40-0xE7C, 0xE90-0xEF4, 0xF00-0xFA4, 0xFB0-0xFB4, 0xFC0-0xFC4, and 0x700-0x7FC with the snapshot
extension (there assumption log 14); and in a dual-page PMU, for a 32-bit access, the locations of the registers
that only the other page has. -/
def Obligations.ReservedLocationsReadZero : Prop :=
  (∀ (s : State) (a : Access) (frame : List Byte) (rest : List Input),
    s.cfg.wf = true → s.inputs = .access frame :: rest → decode s.cfg frame = .ok (.reserved a) →
    (∀ r, parseFrame frame = .ok r → s.gated r = false) →
    step s = .next (State.rearm
      { s with inputs := rest, resp := if a.op.isWrite then .done else .data32 0 }))
  ∧ (∀ (c : Cfg) (off : Nat),
    (0x800 ≤ off ∧ off < 0xA00) ∨ (0xCA0 ≤ off ∧ off < 0xCC0) ∨ (0xCF0 ≤ off ∧ off < 0xD80)
      ∨ (0xE0C ≤ off ∧ off < 0xE20) ∨ off = 0xE34 ∨ (0xE40 ≤ off ∧ off < 0xE80)
      ∨ (0xE90 ≤ off ∧ off < 0xEF8) ∨ (0xF00 ≤ off ∧ off < 0xFA8) ∨ (0xFB0 ≤ off ∧ off < 0xFB8)
      ∨ (0xFC0 ≤ off ∧ off < 0xFC8) ∨ (c.ss = true ∧ 0x700 ≤ off ∧ off < 0x800) →
    rowOf c off = none)
  ∧ (∀ (c : Cfg) (r : RawAccess), (r.access.page = .p1 → c.dual = true) → r.access.op.is64 = false →
    rowOf c r.off = none → decodeRaw c r = .ok (.reserved r.access))
  ∧ (∀ (c : Cfg) (r : RawAccess), c.dual = true → r.access.op.is64 = false →
    (r.access.page = .p0 ∧ (r.off < 0x400 ∨ (c.ss = true ∧ 0x600 ≤ r.off ∧ r.off < 0x700)
      ∨ (0xC80 ≤ r.off ∧ r.off < 0xCA0) ∨ (0xCC0 ≤ r.off ∧ r.off < 0xCE0)))
    ∨ (r.access.page = .p1 ∧ ((0x400 ≤ r.off ∧ r.off < 0x600)
      ∨ (c.ss = false ∧ 0x600 ≤ r.off ∧ r.off < 0x800) ∨ (0xA00 ≤ r.off ∧ r.off < 0xC80)
      ∨ (0xCE0 ≤ r.off ∧ r.off < 0xCF0) ∨ r.off = 0xE04 ∨ (0xE20 ≤ r.off ∧ r.off < 0xF00)
      ∨ r.off = 0xFB8)) →
    decodeRaw c r = .ok (.reserved r.access))

/-- Every 32-bit read of every register completes, answers a word and changes nothing else (R72: no read of any
architected register has a side effect; that a read of IMPDEF<k>, which R72 lets have one, has none either is the
model's choice, assumption log 12). -/
def Obligations.ReadsAnswerAndChangeNothing : Prop :=
  ∀ (i : Instr) (s : State), i.access.op = .rd32 →
    ∃ w, exec i s = .next (s.answer (.data32 w))

/-- Every supported access of every register completes, never faults, and leaves every byte of system memory,
the messages written, the configuration, the environment, the inputs, the effective state and the interrupt
write in flight as they were. -/
def Obligations.AccessesCompleteAndLeaveMemory : Prop :=
  ∀ (i : Instr) (s : State), (i.access.op.is64 = true → i.supports64 s.cfg = true) →
    ∃ t, exec i s = .next t ∧ SameMemory s t ∧ t.sent = s.sent ∧ t.cfg = s.cfg ∧ t.env = s.env
      ∧ t.inputs = s.inputs ∧ t.st = s.st ∧ t.msiBusy = s.msiBusy ∧ t.irqPrev = s.irqPrev
      ∧ t.flight = s.flight ∧ t.strays = s.strays

/-- A write of a read-only register is ignored: every 32-bit write, and every supported, single-copy atomic 64-bit
write of a pair of them (spec 47 section 1, spec 45 sections 3 to 5; the spec's decision D8). -/
def Obligations.ReadOnlyRegistersIgnoreWrites : Prop :=
  ∀ (i : Instr) (s : State), i.isReadOnly = true →
    (∀ v, i.access.op = .wr32 v → exec i s = .next (s.answer .done))
    ∧ (∀ d, i.access.op = .wr64 d → i.supports64 s.cfg = true → s.cfg.atomic64 = true →
      exec i s = .next (s.answer .done))

/-- A single-copy atomic 64-bit read returns the word at the upper offset in bits [63:32] and the word at the
lower offset in bits [31:0], both of the same state (spec 20 section 1). -/
def Obligations.WideReadIsBothHalves : Prop :=
  ∀ (i : Instr) (s : State), i.supports64 s.cfg = true → s.cfg.atomic64 = true →
    i.access.op = .rd64 →
    ∃ lo hi, exec (i.withOp .rd32) s = .next (s.answer (.data32 lo))
      ∧ exec ((i.upper s.cfg).withOp .rd32) s = .next (s.answer (.data32 hi))
      ∧ exec i s = .next (s.answer (.data64 (hi ++ lo)))

/-- A 64-bit read that is not single-copy atomic reads one half, and when the other half arrives with nothing
in between it answers what an atomic one would; the half read first is a free value (spec 20 section 3; how a
split access is held is assumption log 27). -/
def Obligations.SplitReadJoinsHalves : Prop :=
  ∀ (i : Instr) (s : State), i.supports64 s.cfg = true → s.cfg.atomic64 = false →
    i.access.op = .rd64 →
    ∃ lo hi t u, exec (i.withOp .rd32) s = .next (s.answer (.data32 lo))
      ∧ exec ((i.upper s.cfg).withOp .rd32) s = .next (s.answer (.data32 hi))
      ∧ exec i s = .next t ∧ t.splits.length = s.splits.length + 1
      ∧ t.finishSplit s.splits.length = .next u
      ∧ u = { s with draws := s.draws + 1, resp := .data64 (hi ++ lo) }

/-- A 64-bit write that is not single-copy atomic performs the 32-bit write of one half now and leaves the
32-bit write of the other half to arrive; which half is first is a free value (spec 20 section 3; how a split
access is held is assumption log 27). -/
def Obligations.SplitWriteIsTwoWrites : Prop :=
  ∀ (i : Instr) (s : State) (v : DWord), i.supports64 s.cfg = true → s.cfg.atomic64 = false →
    i.access.op = .wr64 v →
    (∃ t, exec (i.withOp (.wr32 (v.extractLsb' 0 32))) s.used = .next t
      ∧ exec i s = .next (t.splitOff 0 false
        ((i.upper s.cfg).withOp (.wr32 (v.extractLsb' 32 32)))))
    ∨ (∃ t, exec ((i.upper s.cfg).withOp (.wr32 (v.extractLsb' 32 32))) s.used = .next t
      ∧ exec i s = .next (t.splitOff 0 true (i.withOp (.wr32 (v.extractLsb' 0 32)))))

/-! ### The monitor value and configuration registers -/

/-- What a read of a monitor register returns: the value of the last pending write of it, and the stored value
when none is pending (R237, R87). -/
def Obligations.MonitorReadsReturnNewestValue : Prop :=
  ∀ (s : State) (r : MonReg),
    (∀ l v rest, s.pend = l ++ ⟨r, v⟩ :: rest → (∀ p ∈ rest, p.reg ≠ r) → s.readMonitorReg r = v)
    ∧ ((∀ p ∈ s.pend, p.reg ≠ r) → s.readMonitorReg r = s.stored r)

/-- The 32-bit reads of the monitor registers: PMEVCNTR<n> in the layout of the PMU, PMEVTYPER<n> and
PMEVFILTR<n> return the newest value, and zero where the monitor or the register does not exist (spec 42
sections 2, 4 and 5). -/
def Obligations.MonitorRegisterReads : Prop :=
  ∀ (s : State) (n : Nat) (p : Page) (ns : Bool),
    (s.cfg.wide = false → exec (.pmevcntr n ⟨p, ns, .rd32⟩) s = .next (s.answer (.data32
      (if s.cfg.impl n then (s.readMonitorReg (.cntr n)).extractLsb' 0 32 else 0))))
    ∧ (s.cfg.wide = true → exec (.pmevcntrLo n ⟨p, ns, .rd32⟩) s = .next (s.answer (.data32
      (if s.cfg.impl n then (s.readMonitorReg (.cntr n)).extractLsb' 0 32 else 0))))
    ∧ (s.cfg.wide = true → exec (.pmevcntrHi n ⟨p, ns, .rd32⟩) s = .next (s.answer (.data32
      (if s.cfg.impl n then (s.readMonitorReg (.cntr n)).extractLsb' 32 32 else 0))))
    ∧ exec (.pmevtyper n ⟨p, ns, .rd32⟩) s = .next (s.answer (.data32
      (if s.cfg.hasTyper n then (s.readMonitorReg (.typer n)).extractLsb' 0 32 else 0)))
    ∧ exec (.pmevfiltr n ⟨p, ns, .rd32⟩) s = .next (s.answer (.data32
      (if s.cfg.hasFiltr n then (s.readMonitorReg (.filtr n)).extractLsb' 0 32 else 0)))

/-- A write of an implemented, writable monitor value register in a STOP state that has settled, or in any STOP
state under `Cfg.NA`, stores the value, taken modulo 2^w(n), in the same step: the 32-bit form, and in the 64-bit
form each half, which composes with the half it does not write, and the atomic whole (at once in STOP: the spec's
decision D24; under `Cfg.NA` not yet settled, the model's reading of R242, assumption log 11). Older pending writes
of it end (assumption log 10), and a held-back chained update goes first, with its flag (assumption log 30). -/
def Obligations.StoppedCounterWriteStores : Prop :=
  ∀ (s : State) (n : Nat) (p : Page) (ns : Bool) (v : Word) (d : DWord),
    s.cfg.impl n = true → s.cfg.cntrWritable n = true → s.stopped →
    (s.cfg.wide = false →
      ∃ t, exec (.pmevcntr n ⟨p, ns, .wr32 v⟩) s = .next t ∧ CounterStored s t n v.toNat)
    ∧ (s.cfg.wide = true →
      (∃ t, exec (.pmevcntrLo n ⟨p, ns, .wr32 v⟩) s = .next t
        ∧ CounterStored s t n ((s.readMonitorReg (.cntr n)).extractLsb' 32 32 ++ v).toNat)
      ∧ (∃ t, exec (.pmevcntrHi n ⟨p, ns, .wr32 v⟩) s = .next t
        ∧ CounterStored s t n (v ++ (s.readMonitorReg (.cntr n)).extractLsb' 0 32).toNat)
      ∧ (s.cfg.atomic64 = true →
        ∃ t, exec (.pmevcntrLo n ⟨p, ns, .wr64 d⟩) s = .next t ∧ CounterStored s t n d.toNat))

/-- A write of PMEVTYPER<n> or PMEVFILTR<n> in a STOP state that has settled, or in any STOP state under `Cfg.NA`
(assumption log 11), stores the written bits inside the register's mask and keeps its fixed bits, in the same step
(the spec's decision D24), and changes nothing else but older pending writes of it (assumption log 10). -/
def Obligations.StoppedConfigWriteStores : Prop :=
  ∀ (s : State) (n : Nat) (m : MonCfg) (p : Page) (ns : Bool) (v : Word),
    s.cfg.mon n = some m → s.stopped →
    (m.hasTyper = true → m.typerWritable = true →
      ∃ t, exec (.pmevtyper n ⟨p, ns, .wr32 v⟩) s = .next t
        ∧ t.typerAt n = (v &&& m.typerMask) ||| (m.typerFixed &&& ~~~m.typerMask)
        ∧ (∀ k, k ≠ n → t.typerAt k = s.typerAt k)
        ∧ t.readMonitorReg (.typer n) = (t.typerAt n).setWidth 64
        ∧ t = { s with
            typer := t.typer, resp := .done
            pend := s.pend.filter (fun q => decide (q.reg ≠ .typer n)) })
    ∧ (m.hasFiltr = true → m.filtrWritable = true →
      ∃ t, exec (.pmevfiltr n ⟨p, ns, .wr32 v⟩) s = .next t
        ∧ t.filtrAt n = (v &&& m.filtrMask) ||| (m.filtrFixed &&& ~~~m.filtrMask)
        ∧ (∀ k, k ≠ n → t.filtrAt k = s.filtrAt k)
        ∧ t.readMonitorReg (.filtr n) = (t.filtrAt n).setWidth 64
        ∧ t = { s with
            filtr := t.filtr, resp := .done
            pend := s.pend.filter (fun q => decide (q.reg ≠ .filtr n)) })

/-- Without `Cfg.NA`, outside a settled STOP state, an accepted write of a monitor register waits: reads return
the new value at once, and everything the PMU core uses still has the old one (R86, R236; in STOP not yet settled, the spec's
decision D24). -/
def Obligations.RunningWritePends : Prop :=
  ∀ (s : State) (n : Nat) (p : Page) (ns : Bool) (v : Word) (d : DWord), s.defers →
    (s.cfg.impl n = true → s.cfg.cntrWritable n = true →
      (s.cfg.wide = false →
        ∃ t, exec (.pmevcntr n ⟨p, ns, .wr32 v⟩) s = .next t
          ∧ WritePending s t (.cntr n) (s.cfg.wrap n v.toNat))
      ∧ (s.cfg.wide = true →
        (∃ t, exec (.pmevcntrLo n ⟨p, ns, .wr32 v⟩) s = .next t ∧ WritePending s t (.cntr n)
          (s.cfg.wrap n ((s.readMonitorReg (.cntr n)).extractLsb' 32 32 ++ v).toNat))
        ∧ (∃ t, exec (.pmevcntrHi n ⟨p, ns, .wr32 v⟩) s = .next t ∧ WritePending s t (.cntr n)
          (s.cfg.wrap n (v ++ (s.readMonitorReg (.cntr n)).extractLsb' 0 32).toNat))
        ∧ (s.cfg.atomic64 = true →
          ∃ t, exec (.pmevcntrLo n ⟨p, ns, .wr64 d⟩) s = .next t
            ∧ WritePending s t (.cntr n) (s.cfg.wrap n d.toNat))))
    ∧ (s.cfg.typerWritable n = true →
      ∃ t, exec (.pmevtyper n ⟨p, ns, .wr32 v⟩) s = .next t
        ∧ WritePending s t (.typer n) ((s.cfg.typerValue n v).setWidth 64))
    ∧ (s.cfg.filtrWritable n = true →
      ∃ t, exec (.pmevfiltr n ⟨p, ns, .wr32 v⟩) s = .next t
        ∧ WritePending s t (.filtr n) ((s.cfg.filtrValue n v).setWidth 64))

/-- A write of a monitor register that is not writable, or that arrives outside STOP where `Cfg.NA` says they
cannot be written then, is ignored, and so is a write of one that does not exist (R85, spec 42 section 1; the
state tested is `OpState()`, the spec's decision D13). -/
def Obligations.IgnoredMonitorWrites : Prop :=
  ∀ (s : State) (n : Nat) (p : Page) (ns : Bool) (v : Word) (d : DWord),
    (s.ignores (.cntr n) ∨ s.cfg.impl n = false →
      exec (.pmevcntr n ⟨p, ns, .wr32 v⟩) s = .next (s.answer .done)
      ∧ exec (.pmevcntrLo n ⟨p, ns, .wr32 v⟩) s = .next (s.answer .done)
      ∧ exec (.pmevcntrHi n ⟨p, ns, .wr32 v⟩) s = .next (s.answer .done)
      ∧ (s.cfg.atomic64 = true →
        exec (.pmevcntrLo n ⟨p, ns, .wr64 d⟩) s = .next (s.answer .done)))
    ∧ (s.ignores (.typer n) ∨ s.cfg.hasTyper n = false →
      exec (.pmevtyper n ⟨p, ns, .wr32 v⟩) s = .next (s.answer .done))
    ∧ (s.ignores (.filtr n) ∨ s.cfg.hasFiltr n = false →
      exec (.pmevfiltr n ⟨p, ns, .wr32 v⟩) s = .next (s.answer .done))

/-- With the cycle counter, PMCCNTR is monitor 31 and PMCCFILTR its event select register: each access is that of
PMEVCNTR<31> or PMEVTYPER<31> (R232, R235); without it the two names read zero and ignore writes. -/
def Obligations.CycleCounterIsMonitor31 : Prop :=
  ∀ (s : State) (a : Access),
    (s.cfg.cc = true →
      exec (.pmccntr a) s = exec (.pmevcntr 31 a) s
      ∧ exec (.pmccntrHi a) s = exec (.pmevcntrHi 31 a) s
      ∧ exec (.pmccfiltr a) s = exec (.pmevtyper 31 a) s
      ∧ (a.op.is64 = false ∨ s.cfg.atomic64 = true →
        exec (.pmccntrLo a) s = exec (.pmevcntrLo 31 a) s))
    ∧ (s.cfg.cc = false →
      ∀ i ∈ [Instr.pmccntr a, .pmccntrLo a, .pmccntrHi a, .pmccfiltr a],
        (a.op = .rd32 → exec i s = .next (s.answer (.data32 0)))
        ∧ (∀ v, a.op = .wr32 v → exec i s = .next (s.answer .done)))

/-- A pending write is not lost: no step of the PMU core makes a read of the counter return anything but the
value written, whether the write has taken effect in it or not (spec 20 section 6). -/
def Obligations.PendingCounterWriteIsNotLost : Prop :=
  ∀ (s t : State) (n : Nat) (v : DWord) (i : Input), newest (.cntr n) s.pend = some v →
    i.isCore = true → s.take i = .next t → t.readMonitorReg (.cntr n) = v

/-- `TakeEffect(r)` removes the oldest pending write of `r` and gives the register that value; nothing but a
held-back chained update of that counter, which goes first and sets its flag, and for the cycle counter the
prescaler phase, which becomes a free value, changes besides (R86, R204, R193; the free phase is the spec's
decision D34). -/
def Obligations.TakeEffectCommitsOldestWrite : Prop :=
  ∀ (s : State) (r : MonReg) (v : DWord) (l rest : List PendEntry),
    s.pend = l ++ ⟨r, v⟩ :: rest → (∀ p ∈ l, p.reg ≠ r) →
    ∃ t, s.take (.takeEffect r) = .next t
      ∧ (match r with
        | .cntr n => t.xAt n = v ∧ (∀ k, k ≠ n → t.xAt k = s.xAt k)
          ∧ t.lowAt n = 0 ∧ (∀ k, k ≠ n → t.lowAt k = s.lowAt k)
          ∧ (∀ k, t.ovsBit k
            = (s.ovsBit k || (decide (k = n ∧ k < 256) && decide (s.lowAt n ≠ 0))))
          ∧ ((s.cfg.isCycle n && s.cfg.ccd) = false → t.presc = s.presc ∧ t.draws = s.draws)
          ∧ t = { s with
              x := t.x, ovs := t.ovs, lowPend := t.lowPend, presc := t.presc, draws := t.draws
              pend := l ++ rest }
        | .typer n => t.typerAt n = v.setWidth 32 ∧ (∀ k, k ≠ n → t.typerAt k = s.typerAt k)
          ∧ t = { s with typer := t.typer, pend := l ++ rest }
        | .filtr n => t.filtrAt n = v.setWidth 32 ∧ (∀ k, k ≠ n → t.filtrAt k = s.filtrAt k)
          ∧ t = { s with filtr := t.filtr, pend := l ++ rest })

/-! ### The set and clear registers -/

/-- Each of the six arrays: a write of 1 sets or clears its bit of the vector where the bit is present, a write
of 0 has no effect, nothing else changes, and both registers of a pair read the present bits (R261). -/
def Obligations.SetAndClearRegistersActOnTheirBits : Prop :=
  ∀ (s : State) (m : Nat) (p : Page) (ns : Bool) (v : Word), m < 8 →
    (∃ t, exec (.pmcntenset m ⟨p, ns, .wr32 v⟩) s = .next t
      ∧ SetsBits s.cnten t.cnten m v s.cfg.impl ∧ t = { s with cnten := t.cnten, resp := .done })
    ∧ (∃ t, exec (.pmcntenclr m ⟨p, ns, .wr32 v⟩) s = .next t
      ∧ ClearsBits s.cnten t.cnten m v ∧ t = { s with cnten := t.cnten, resp := .done })
    ∧ (∃ t, exec (.pmintenset m ⟨p, ns, .wr32 v⟩) s = .next t
      ∧ SetsBits s.inten t.inten m v (fun n => s.cfg.impl n && s.cfg.hasOvf n)
      ∧ t = { s with inten := t.inten, resp := .done })
    ∧ (∃ t, exec (.pmintenclr m ⟨p, ns, .wr32 v⟩) s = .next t
      ∧ ClearsBits s.inten t.inten m v ∧ t = { s with inten := t.inten, resp := .done })
    ∧ (∃ t, exec (.pmovsset m ⟨p, ns, .wr32 v⟩) s = .next t
      ∧ SetsBits s.ovs t.ovs m v (fun n => s.cfg.impl n && s.cfg.hasOvf n)
      ∧ t = { s with ovs := t.ovs, resp := .done })
    ∧ (∃ t, exec (.pmovsclr m ⟨p, ns, .wr32 v⟩) s = .next t
      ∧ ClearsBits s.ovs t.ovs m v ∧ t = { s with ovs := t.ovs, resp := .done })
    ∧ (∃ w, ShowsBits w s.cnten m s.cfg.impl
      ∧ exec (.pmcntenset m ⟨p, ns, .rd32⟩) s = .next (s.answer (.data32 w))
      ∧ exec (.pmcntenclr m ⟨p, ns, .rd32⟩) s = .next (s.answer (.data32 w)))
    ∧ (∃ w, ShowsBits w s.inten m (fun n => s.cfg.impl n && s.cfg.hasOvf n)
      ∧ exec (.pmintenset m ⟨p, ns, .rd32⟩) s = .next (s.answer (.data32 w))
      ∧ exec (.pmintenclr m ⟨p, ns, .rd32⟩) s = .next (s.answer (.data32 w)))
    ∧ (∃ w, ShowsBits w s.ovs m (fun n => s.cfg.impl n && s.cfg.hasOvf n)
      ∧ exec (.pmovsset m ⟨p, ns, .rd32⟩) s = .next (s.answer (.data32 w))
      ∧ exec (.pmovsclr m ⟨p, ns, .rd32⟩) s = .next (s.answer (.data32 w)))

/-- A supported, single-copy atomic 64-bit write of a pair of set or clear registers does in one step what the
32-bit write of register m with the low word and then that of register m + 1 with the high word do (spec 20
section 2). -/
def Obligations.WidePairWriteIsBothWrites : Prop :=
  ∀ (s : State) (m : Nat) (a : Access) (d : DWord), m % 2 = 0 → s.cfg.pair64 = true →
    s.cfg.atomic64 = true → a.op = .wr64 d →
    ∀ i ∈ [Instr.pmcntenset m a, .pmcntenclr m a, .pmintenset m a, .pmintenclr m a, .pmovsset m a,
      .pmovsclr m a],
    ∃ t u, exec (i.withOp (.wr32 (d.extractLsb' 0 32))) s = .next t
      ∧ exec ((i.upper s.cfg).withOp (.wr32 (d.extractLsb' 32 32))) t = .next u
      ∧ exec i s = .next u

/-! ### The control, configuration and IMPDEF registers -/

/-- A write of PMCR, in every operating state: each stored bit that is present takes the written bit, P zeroes
every monitor but the cycle counter, C zeroes the cycle counter; a zeroed monitor's pending writes are dropped
and its held-back update has set its flag first; no other flag and nothing else changes, but for the prescaler
phase, which C leaves open. Where the open parameter of decision D22 makes `Cfg.NA` block the resets, P and C
are ignored outside STOP (assumption log 19). -/
def Obligations.PmcrWriteStoresAndResets : Prop :=
  ∀ (s : State) (p : Page) (ns : Bool) (v : Word),
    let bits : PmcrBits :=
      { e := v.getLsbD 0
        d := if s.cfg.cc && s.cfg.ccd then v.getLsbD 3 else s.pmcr.d
        x := if s.cfg.ex then v.getLsbD 4 else s.pmcr.x
        dp := if s.cfg.cc then v.getLsbD 5 else s.pmcr.dp
        fzo := if s.cfg.fzo then v.getLsbD 9 else s.pmcr.fzo
        hdbg := if s.cfg.hdbg then v.getLsbD 10 else s.pmcr.hdbg
        tro := if s.cfg.tro then v.getLsbD 11 else s.pmcr.tro }
    let blocked : Bool := s.cfg.naBlocksPmcrReset && s.cfg.na
      && decide (State.opState { s with pmcr := bits } ≠ .stop)
    let zeroed (n : Nat) : Bool := !blocked && ((v.getLsbD 1 && s.cfg.impl n && !s.cfg.isCycle n)
      || (v.getLsbD 2 && s.cfg.isCycle n))
    ∃ t, exec (.pmcr ⟨p, ns, .wr32 v⟩) s = .next t
      ∧ t.pmcr = bits
      ∧ (∀ n, t.xAt n = if zeroed n then 0 else s.xAt n)
      ∧ (∀ n, t.lowAt n = if zeroed n then 0 else s.lowAt n)
      ∧ (∀ n, t.ovsBit n
        = (s.ovsBit n || (decide (n < 256) && zeroed n && decide (s.lowAt n ≠ 0))))
      ∧ t.pend = s.pend.filter (fun q => match q.reg with
        | .cntr n => !zeroed n
        | .typer _ => true
        | .filtr _ => true)
      ∧ (v.getLsbD 2 = false → t.presc = s.presc ∧ t.draws = s.draws)
      ∧ t = { s with
          pmcr := bits, x := t.x, lowPend := t.lowPend, ovs := t.ovs, pend := t.pend
          presc := t.presc, draws := t.draws, resp := .done }

/-- A read of PMCR returns each stored bit in its place and zero elsewhere; a bit whose feature is not implemented
is zero in every state that keeps the invariant of R466 (R282). NA reads 1 exactly where `Cfg.NA` holds and the
operating state is not STOP, which R299 gives as the spec's decision D12. -/
def Obligations.PmcrReadShowsBits : Prop :=
  ∀ (s : State) (p : Page) (ns : Bool), ∃ w : Word,
    exec (.pmcr ⟨p, ns, .rd32⟩) s = .next (s.answer (.data32 w))
    ∧ w.getLsbD 0 = s.pmcr.e ∧ w.getLsbD 3 = s.pmcr.d ∧ w.getLsbD 4 = s.pmcr.x
    ∧ w.getLsbD 5 = s.pmcr.dp ∧ w.getLsbD 9 = s.pmcr.fzo ∧ w.getLsbD 10 = s.pmcr.hdbg
    ∧ w.getLsbD 11 = s.pmcr.tro
    ∧ w.getLsbD 8 = (s.cfg.na && decide (s.opState ≠ .stop))
    ∧ (∀ i, i ∉ [0, 3, 4, 5, 8, 9, 10, 11] → w.getLsbD i = false)
    ∧ (PmcrInv s.cfg s.pmcr →
      ((s.cfg.cc && s.cfg.ccd) = false → w.getLsbD 3 = false)
      ∧ (s.cfg.ex = false → w.getLsbD 4 = false) ∧ (s.cfg.cc = false → w.getLsbD 5 = false)
      ∧ (s.cfg.fzo = false → w.getLsbD 9 = false) ∧ (s.cfg.hdbg = false → w.getLsbD 10 = false)
      ∧ (s.cfg.tro = false → w.getLsbD 11 = false))

/-- A read of PMCFGR returns the configuration's fields, each in its place, and zero in the reserved bits;
through Page 1 the seven control-feature bits read zero (R283, R284). -/
def Obligations.PmcfgrReadShowsConfiguration : Prop :=
  ∀ (s : State) (p : Page) (ns : Bool), s.cfg.wf = true → ∃ w : Word,
    exec (.pmcfgr ⟨p, ns, .rd32⟩) s = .next (s.answer (.data32 w))
    ∧ (w.extractLsb' 28 4).toNat = s.cfg.ngrp - 1 ∧ w.extractLsb' 25 3 = 0
    ∧ w.getLsbD 24 = (s.cfg.hdbg && p == .p0) ∧ w.getLsbD 23 = (s.cfg.tro && p == .p0)
    ∧ w.getLsbD 22 = s.cfg.ss ∧ w.getLsbD 21 = (s.cfg.fzo && p == .p0)
    ∧ w.getLsbD 20 = (s.cfg.msi && p == .p0) ∧ w.getLsbD 19 = false ∧ w.getLsbD 18 = false
    ∧ w.getLsbD 17 = (s.cfg.na && p == .p0) ∧ w.getLsbD 16 = (s.cfg.ex && p == .p0)
    ∧ w.getLsbD 15 = (s.cfg.cc && s.cfg.ccd && p == .p0) ∧ w.getLsbD 14 = s.cfg.cc
    ∧ (w.extractLsb' 8 6).toNat = s.cfg.size - 1 ∧ (w.extractLsb' 0 8).toNat = s.cfg.nmon - 1

/-- PMCGCR<k> gives the number of monitors of groups 4k to 4k + 3, one to a byte, and reads zero where there is
one group; PMCEID<k> reads its constant of the configuration (spec 44 sections 3 and 4). -/
def Obligations.GroupAndEventReads : Prop :=
  ∀ (s : State) (k : Nat) (p : Page) (ns : Bool), s.cfg.wf = true → k < 4 →
    (∃ w : Word, exec (.pmcgcr k ⟨p, ns, .rd32⟩) s = .next (s.answer (.data32 w))
      ∧ (s.cfg.ngrp ≤ 1 → w = 0)
      ∧ (1 < s.cfg.ngrp →
        ∀ m, m < 4 → (w.extractLsb' (8 * m) 8).toNat = s.cfg.groups.getD (4 * k + m) 0))
    ∧ exec (.pmceid k ⟨p, ns, .rd32⟩) s = .next (s.answer (.data32 (s.cfg.ceid.getD k 0)))

/-- An IMPDEF register the configuration defines reads back the written bits inside its mask and its fixed bits
outside; one it does not define reads zero and ignores writes (spec 44 section 5; assumption log 12). -/
def Obligations.ImpdefReadsBackUnderItsMask : Prop :=
  ∀ (s : State) (k : Nat) (p : Page) (ns : Bool) (v : Word),
    (∀ d, s.cfg.impdefAt k = some d →
      ∃ t, exec (.impdef k ⟨p, ns, .wr32 v⟩) s = .next t
        ∧ exec (.impdef k ⟨p, ns, .rd32⟩) t
          = .next (t.answer (.data32 ((v &&& d.mask) ||| (d.fixed &&& ~~~d.mask))))
        ∧ (∀ j, j ≠ k → t.impdefAt j = s.impdefAt j)
        ∧ t = { s with impdef := t.impdef, resp := .done })
    ∧ (s.cfg.impdefAt k = none →
      exec (.impdef k ⟨p, ns, .wr32 v⟩) s = .next (s.answer .done)
      ∧ exec (.impdef k ⟨p, ns, .rd32⟩) s = .next (s.answer (.data32 0)))

/-! ### The snapshot registers -/

/-- A capture, by a write of 1 to PMSSCR.SS or by the snapshot request signal, in any operating state: it saves
the values of that instant, shows success in PMSSSR, and then zeroes the monitors PMSSRR selects and their
flags; nothing else changes. A syndrome is a free value (assumption log 21). -/
def Obligations.CaptureSavesValuesAndResets : Prop :=
  ∀ (s : State) (p : Page) (ns : Bool) (v : Word), s.cfg.ss = true → s.env.captureAllowed = true →
    (v.getLsbD 0 = true → ∃ t, exec (.pmsscr ⟨p, ns, .wr32 v⟩) s = .next t ∧ Captured s t
      ∧ t = { s with
          svr := t.svr, draws := t.draws, x := t.x, ovs := t.ovs, lowPend := t.lowPend, resp := .done })
    ∧ (s.cfg.hasSnapReqSignal = true → ∃ t, s.take .snapReq = .next t ∧ Captured s t
      ∧ t = { s with
          svr := t.svr, draws := t.draws, x := t.x, ovs := t.ovs, lowPend := t.lowPend })

/-- A capture refused for a security violation, asked for by a write of 1 to PMSSCR.SS or by the snapshot request
signal, sets PMSSSR.NC to 1 and leaves everything else; a write of 0 to PMSSCR.SS, a write or a request without
the snapshot extension, and a request without the signal, do nothing; PMSSCR reads zero (spec 41 section 6,
spec 45 section 1). That the signal may exist without the extension, and then does nothing, is the model's reading
(assumption log 21). -/
def Obligations.RefusedAndAbsentCaptures : Prop :=
  ∀ (s : State) (p : Page) (ns : Bool) (v : Word),
    (s.cfg.ss = true → s.env.captureAllowed = false → v.getLsbD 0 = true →
      ∃ t, exec (.pmsscr ⟨p, ns, .wr32 v⟩) s = .next t ∧ t.svrAt s.cfg.ssrIdx = 1
        ∧ (∀ k, k ≠ s.cfg.ssrIdx → t.svrAt k = s.svrAt k) ∧ t = { s with svr := t.svr, resp := .done })
    ∧ (s.cfg.ss = true → s.env.captureAllowed = false → s.cfg.hasSnapReqSignal = true →
      ∃ t, s.take .snapReq = .next t ∧ t.svrAt s.cfg.ssrIdx = 1
        ∧ (∀ k, k ≠ s.cfg.ssrIdx → t.svrAt k = s.svrAt k) ∧ t = { s with svr := t.svr })
    ∧ (s.cfg.ss = false ∨ v.getLsbD 0 = false →
      exec (.pmsscr ⟨p, ns, .wr32 v⟩) s = .next (s.answer .done))
    ∧ (s.cfg.hasSnapReqSignal = false ∨ s.cfg.ss = false → s.take .snapReq = .next s)
    ∧ exec (.pmsscr ⟨p, ns, .rd32⟩) s = .next (s.answer (.data32 0))

/-- The saved values change only in a capture and at reset: no access but to PMSSCR, and no step of the PMU core
but the snapshot request, changes any of them (spec 41 section 6, R215). -/
def Obligations.SnapshotPersists : Prop :=
  (∀ (i : Instr) (s t : State), (∀ a, i ≠ .pmsscr a) → exec i s = .next t → t.svr = s.svr)
  ∧ (∀ (i : Input) (s t : State), i.isCore = true → i ≠ .snapReq → s.take i = .next t →
    t.svr = s.svr)

/-- PMSSRR: bit m is stored and read where PMSSRR and monitor m are implemented and is zero elsewhere; a write
of one half leaves the other; without `Cfg.SSRR` it reads zero and ignores writes (R325, R326; by the
implemented monitors, the spec's decision D31). -/
def Obligations.PmssrrStoresImplementedBits : Prop :=
  ∀ (s : State) (p : Page) (ns : Bool) (v : Word) (d : DWord),
    (s.cfg.ssrr = true →
      (∃ t, exec (.pmssrrLo ⟨p, ns, .wr32 v⟩) s = .next t ∧ t = { s with pmssrr := t.pmssrr, resp := .done }
        ∧ ∀ m, m < 64 → t.pmssrr.getLsbD m
          = if m < 32 then v.getLsbD m && s.cfg.impl m else s.pmssrr.getLsbD m)
      ∧ (∃ t, exec (.pmssrrHi ⟨p, ns, .wr32 v⟩) s = .next t ∧ t = { s with pmssrr := t.pmssrr, resp := .done }
        ∧ ∀ m, m < 64 → t.pmssrr.getLsbD m
          = if m < 32 then s.pmssrr.getLsbD m else v.getLsbD (m - 32) && s.cfg.impl m)
      ∧ (s.cfg.atomic64 = true →
        ∃ t, exec (.pmssrrLo ⟨p, ns, .wr64 d⟩) s = .next t ∧ t = { s with pmssrr := t.pmssrr, resp := .done }
          ∧ ∀ m, m < 64 → t.pmssrr.getLsbD m = (d.getLsbD m && s.cfg.impl m)))
    ∧ (s.cfg.ssrr = false →
      exec (.pmssrrLo ⟨p, ns, .wr32 v⟩) s = .next (s.answer .done)
      ∧ exec (.pmssrrHi ⟨p, ns, .wr32 v⟩) s = .next (s.answer .done)
      ∧ (s.cfg.atomic64 = true → exec (.pmssrrLo ⟨p, ns, .wr64 d⟩) s = .next (s.answer .done)))
    ∧ (∃ lo hi : Word, exec (.pmssrrLo ⟨p, ns, .rd32⟩) s = .next (s.answer (.data32 lo))
      ∧ exec (.pmssrrHi ⟨p, ns, .rd32⟩) s = .next (s.answer (.data32 hi))
      ∧ ∀ m, m < 32 → lo.getLsbD m = (s.pmssrr.getLsbD m && (s.cfg.ssrr && s.cfg.impl m))
        ∧ hi.getLsbD m = (s.pmssrr.getLsbD (m + 32) && (s.cfg.ssrr && s.cfg.impl (m + 32))))

/-- PMSVR<k> reads its saved value and zero where the map has none; PMSSSR and PMOVSSR<m> are the saved value
registers the map gives them; without the snapshot extension all read zero (spec 45 sections 3 to 5). -/
def Obligations.SavedValueReads : Prop :=
  ∀ (s : State) (k m : Nat) (p : Page) (ns : Bool), s.cfg.wf = true →
    (s.cfg.ss = true →
      exec (.pmsvr k ⟨p, ns, .rd32⟩) s = .next (s.answer (.data32
        (if s.cfg.svrSlot k = .unused then 0 else s.svrAt k)))
      ∧ exec (.pmsssr ⟨p, ns, .rd32⟩) s = .next (s.answer (.data32 (s.svrAt s.cfg.ssrIdx)))
      ∧ (s.cfg.svrSlot k = .ovs m →
        exec (.pmovssr m ⟨p, ns, .rd32⟩) s = .next (s.answer (.data32 (s.svrAt k)))))
    ∧ (s.cfg.ss = false →
      exec (.pmsvr k ⟨p, ns, .rd32⟩) s = .next (s.answer (.data32 0))
      ∧ exec (.pmsssr ⟨p, ns, .rd32⟩) s = .next (s.answer (.data32 0))
      ∧ exec (.pmovssr m ⟨p, ns, .rd32⟩) s = .next (s.answer (.data32 0)))

/-! ### The interrupt message registers and the message -/

/-- PMIRQCR0: bits [PAsize-1:2] are stored and read, the others are zero; a write of one half leaves the other; a
blocked Non-secure write is ignored (R353, R352; of PMIRQCR0 by the spec's decision D36). -/
def Obligations.Pmirqcr0StoresTheAddress : Prop :=
  ∀ (s : State) (p : Page) (ns : Bool) (v : Word) (d : DWord), s.cfg.msi = true →
    let addressBit (i : Nat) : Bool := decide (2 ≤ i) && decide (i < s.cfg.paSize)
    (s.addrBlocked ns = false →
      (∃ t, exec (.pmirqcr0Lo ⟨p, ns, .wr32 v⟩) s = .next t ∧ t = { s with irqcr0 := t.irqcr0, resp := .done }
        ∧ ∀ i, i < 64 → t.irqcr0.getLsbD i
          = if i < 32 then v.getLsbD i && addressBit i else s.irqcr0.getLsbD i)
      ∧ (∃ t, exec (.pmirqcr0Hi ⟨p, ns, .wr32 v⟩) s = .next t ∧ t = { s with irqcr0 := t.irqcr0, resp := .done }
        ∧ ∀ i, i < 64 → t.irqcr0.getLsbD i
          = if i < 32 then s.irqcr0.getLsbD i else v.getLsbD (i - 32) && addressBit i)
      ∧ (s.cfg.atomic64 = true →
        ∃ t, exec (.pmirqcr0Lo ⟨p, ns, .wr64 d⟩) s = .next t ∧ t = { s with irqcr0 := t.irqcr0, resp := .done }
          ∧ ∀ i, i < 64 → t.irqcr0.getLsbD i = (d.getLsbD i && addressBit i)))
    ∧ (s.addrBlocked ns = true →
      exec (.pmirqcr0Lo ⟨p, ns, .wr32 v⟩) s = .next (s.answer .done)
      ∧ exec (.pmirqcr0Hi ⟨p, ns, .wr32 v⟩) s = .next (s.answer .done)
      ∧ (s.cfg.atomic64 = true → exec (.pmirqcr0Lo ⟨p, ns, .wr64 d⟩) s = .next (s.answer .done)))
    ∧ (∃ lo hi : Word, exec (.pmirqcr0Lo ⟨p, ns, .rd32⟩) s = .next (s.answer (.data32 lo))
      ∧ exec (.pmirqcr0Hi ⟨p, ns, .rd32⟩) s = .next (s.answer (.data32 hi))
      ∧ ∀ i, i < 32 → lo.getLsbD i = (s.irqcr0.getLsbD i && addressBit i)
        ∧ hi.getLsbD i = (s.irqcr0.getLsbD (i + 32) && addressBit (i + 32)))

/-- PMIRQCR1 stores and reads 32 bits; a write of 1 to PMIRQSR.IRQERR clears it, a write of 0 leaves it, and
PMIRQSR reads IRQERR and the write in flight; the high half of PMIRQSR reads zero (R354, R356). -/
def Obligations.Pmirqcr1AndPmirqsr : Prop :=
  ∀ (s : State) (p : Page) (ns : Bool) (v : Word) (d : DWord), s.cfg.msi = true →
    (s.nsBlocked ns = false →
      exec (.pmirqcr1 ⟨p, ns, .wr32 v⟩) s = .next { s with irqcr1 := v, resp := .done }
      ∧ exec (.pmirqsrLo ⟨p, ns, .wr32 v⟩) s
        = .next { s with irqErr := s.irqErr && !v.getLsbD 1, resp := .done }
      ∧ (s.cfg.atomic64 = true → exec (.pmirqsrLo ⟨p, ns, .wr64 d⟩) s
        = .next { s with irqErr := s.irqErr && !d.getLsbD 1, resp := .done }))
    ∧ exec (.pmirqcr1 ⟨p, ns, .rd32⟩) s = .next (s.answer (.data32 s.irqcr1))
    ∧ exec (.pmirqsrLo ⟨p, ns, .rd32⟩) s = .next (s.answer (.data32
      (BitVec.ofNat 32 (2 * s.irqErr.toNat + s.msiBusy.toNat))))
    ∧ exec (.pmirqsrHi ⟨p, ns, .rd32⟩) s = .next (s.answer (.data32 0))
    ∧ exec (.pmirqsrHi ⟨p, ns, .wr32 v⟩) s = .next (s.answer .done)

/-- PMIRQCR2: a write that is not blocked stores each implemented field, but NSMSI only if the access is Secure;
a read returns each implemented field in its place and zero elsewhere (R355, R352). -/
def Obligations.Pmirqcr2Fields : Prop :=
  ∀ (s : State) (p : Page) (ns : Bool) (v : Word), s.cfg.msi = true →
    (s.nsBlocked ns = false →
      exec (.pmirqcr2 ⟨p, ns, .wr32 v⟩) s = .next { s with
        resp := .done
        irqcr2 :=
          { msien := if s.cfg.msiCanDisable then v.getLsbD 7 else s.irqcr2.msien
            nsmsi := if s.cfg.msiNsCfg ∧ ns = false then v.getLsbD 6 else s.irqcr2.nsmsi
            sh := if s.cfg.msiShCfg then v.extractLsb' 4 2 else s.irqcr2.sh
            memAttr := if s.cfg.msiAttrCfg then v.extractLsb' 0 4 else s.irqcr2.memAttr } })
    ∧ (∃ w : Word, exec (.pmirqcr2 ⟨p, ns, .rd32⟩) s = .next (s.answer (.data32 w))
      ∧ w.extractLsb' 8 24 = 0
      ∧ w.getLsbD 7 = (s.cfg.msiCanDisable && s.irqcr2.msien)
      ∧ w.getLsbD 6 = (s.cfg.msiNsCfg && s.irqcr2.nsmsi)
      ∧ w.extractLsb' 4 2 = (if s.cfg.msiShCfg then s.irqcr2.sh else 0)
      ∧ w.extractLsb' 0 4 = (if s.cfg.msiAttrCfg then s.irqcr2.memAttr else 0))

/-- While NSMSI is implemented and 0, a Non-secure write of PMIRQCR1, PMIRQCR2 or PMIRQSR, and by the default of
decision D36 of PMIRQCR0, is ignored; and no Non-secure access of any register ever changes NSMSI (the spec's
decision D38). -/
def Obligations.NonSecureAccessesCannotTakeTheMessage : Prop :=
  (∀ (s : State) (p : Page) (v : Word) (d : DWord), s.nsLocked = true →
    (∀ i ∈ [Instr.pmirqcr1 ⟨p, true, .wr32 v⟩, .pmirqcr2 ⟨p, true, .wr32 v⟩,
        .pmirqsrLo ⟨p, true, .wr32 v⟩, .pmirqsrHi ⟨p, true, .wr32 v⟩],
      exec i s = .next (s.answer .done))
    ∧ (s.cfg.msiAddrNsGuard = true →
      ∀ i ∈ [Instr.pmirqcr0Lo ⟨p, true, .wr32 v⟩, .pmirqcr0Hi ⟨p, true, .wr32 v⟩],
        exec i s = .next (s.answer .done))
    ∧ (s.cfg.atomic64 = true →
      exec (.pmirqsrLo ⟨p, true, .wr64 d⟩) s = .next (s.answer .done)
      ∧ (s.cfg.msiAddrNsGuard = true →
        exec (.pmirqcr0Lo ⟨p, true, .wr64 d⟩) s = .next (s.answer .done))))
  ∧ (∀ (i : Instr) (s t : State), i.access.ns = true → exec i s = .next t →
    t.irqcr2.nsmsi = s.irqcr2.nsmsi)

/-- Without message-signalled interrupts the four registers read zero and ignore writes, and no message starts
(spec 46 section 8). -/
def Obligations.AbsentMessageBlock : Prop :=
  ∀ (s : State) (a : Access), s.cfg.msi = false →
    (∀ i ∈ [Instr.pmirqcr0Lo a, .pmirqcr0Hi a, .pmirqcr1 a, .pmirqcr2 a, .pmirqsrLo a, .pmirqsrHi a],
      (a.op = .rd32 → exec i s = .next (s.answer (.data32 0)))
      ∧ (∀ v, a.op = .wr32 v → exec i s = .next (s.answer .done)))
    ∧ s.take .msiStart = .next s

/-- `MsiStart`, where its precondition holds, issues one message: the payload, to the implemented bits of the
address, in the address space NSMSI selects, with the shareability and memory type held where they are implemented
and the configuration's constants where not, unless a reserved value is held, which leaves both free; it marks the
write in progress and the rise as signalled and changes nothing else: the bytes change when the message arrives
(assumption log 7). Where its precondition fails it does nothing (R358; once per rise is the spec's decision D17;
constants and free labels are assumption log 20). -/
def Obligations.MsiStartIssuesTheMessage : Prop :=
  ∀ (s : State),
    (s.cfg.msi = true → s.msiEnabled = true → s.irqCond = true → s.irqPrev = false → s.msiBusy = false →
      ∃ t m, s.take .msiStart = .next t ∧ m.data = s.irqcr1
        ∧ (∀ i, i < 64 → m.addr.getLsbD i
          = (s.irqcr0.getLsbD i && decide (2 ≤ i) && decide (i < s.cfg.paSize)))
        ∧ m.ns = (if s.cfg.msiNsCfg then s.irqcr2.nsmsi else s.cfg.msiNsWritable || s.cfg.msiNsFixed)
        ∧ ((s.cfg.msiShCfg = true → s.irqcr2.sh ≠ 1)
          ∧ (s.cfg.msiAttrCfg = true → s.irqcr2.memAttr ≠ 4 ∧ s.irqcr2.memAttr ≠ 8 ∧ s.irqcr2.memAttr ≠ 12) →
          m.sh = (if s.cfg.msiShCfg then s.irqcr2.sh else s.cfg.msiShFixed)
          ∧ m.memAttr = (if s.cfg.msiAttrCfg then s.irqcr2.memAttr else s.cfg.msiAttrFixed)
          ∧ t.draws = s.draws)
        ∧ t = { s with
            irqPrev := true, msiBusy := true, sent := m :: s.sent, flight := some m, draws := t.draws })
    ∧ (s.cfg.msi = false ∨ s.msiEnabled = false ∨ s.irqCond = false ∨ s.irqPrev = true ∨ s.msiBusy = true →
      s.take .msiStart = .next s)

/-- System memory changes only where a message reaches its target, and only `MsiStart` issues one: the arrival of
the write in progress, or of one that a reset abandoned, writes its four bytes in its address space, least
significant byte lowest, and no other byte; an abandoned one may be lost instead; nothing else changes (R93, R461;
when the bytes change, and their order, are assumption log 7). -/
def Obligations.OnlyArrivingMessagesWriteMemory : Prop :=
  (∀ (i : Input) (s t : State), i ≠ .msiArrive → (∀ err, i ≠ .msiDone err) →
    (∀ k reaches, i ≠ .strayEnd k reaches) → s.take i = .next t → SameMemory s t)
  ∧ (∀ (i : Input) (s t : State), i ≠ .msiStart → s.take i = .next t → t.sent = s.sent)
  ∧ (∀ (s : State) (m : MsiMsg), s.flight = some m → ∃ t, s.take .msiArrive = .next t ∧ Landed s t m
    ∧ t = { s with memS := t.memS, memNS := t.memNS, flight := none })
  ∧ (∀ (s : State), s.flight = none → s.take .msiArrive = .next s)
  ∧ (∀ (s : State) (k : Nat) (m : MsiMsg) (reaches : Bool), s.strays[k]? = some m →
    ∃ t, s.take (.strayEnd k reaches) = .next t
      ∧ (reaches = true → Landed s t m) ∧ (reaches = false → SameMemory s t)
      ∧ t = { s with memS := t.memS, memNS := t.memNS, strays := s.strays.eraseIdx k })
  ∧ (∀ (s : State) (k : Nat) (reaches : Bool), s.strays.length ≤ k →
    s.take (.strayEnd k reaches) = .next s)

/-- One message per rise of the interrupt condition: a step that sends a message starts with the rise not yet
signalled and none in flight and ends with it signalled; while it is signalled no step sends another; and it is
signalled after a step only if the condition holds then, so a fall re-arms it (R358; once per rise is the
spec's decision D17). -/
def Obligations.OneMessagePerRise : Prop :=
  ∀ (s t : State), step s = .next t →
    (t.sent = s.sent ∨ ((∃ m, t.sent = m :: s.sent) ∧ s.irqPrev = false ∧ s.msiBusy = false
      ∧ s.irqCond = true ∧ t.irqPrev = true ∧ t.msiBusy = true))
    ∧ (s.irqPrev = true → t.sent = s.sent)
    ∧ (t.irqPrev = true → t.irqCond = true)

/-- `MsiDone` ends the write in progress, and an error sets IRQERR, which it never clears; with none in progress it
does nothing (R359). If the write had not reached its target before, it has after an end without error, and after
one with an error it may have or not (assumption log 7). -/
def Obligations.MsiDoneEndsTheWrite : Prop :=
  ∀ (s : State) (err : Bool),
    (s.msiBusy = true → ∃ t, s.take (.msiDone err) = .next t
      ∧ (∀ m, s.flight = some m → (err = false → Landed s t m)
        ∧ (err = true → Landed s t m ∨ SameMemory s t))
      ∧ (s.flight = none → SameMemory s t) ∧ (err = false → t.draws = s.draws)
      ∧ t = { s with
          memS := t.memS, memNS := t.memNS, draws := t.draws, flight := none, msiBusy := false
          irqErr := if err then true else s.irqErr })
    ∧ (s.msiBusy = false → s.take (.msiDone err) = .next s)

/-! ### The steps of the PMU core -/

/-- `Count` of a counter, chained or not, whose overflow is not to be chained: the counter adds the amount modulo
2^w(n), its flag is set if the sum does not fit and never cleared, and nothing else changes (R145, R146). Where a
chained update of the counter is held back, that update goes first, with its flag, and then the occurrence is
counted (R204). -/
def Obligations.CountAddsAndFlags : Prop :=
  ∀ (s : State) (n : Nat) (e : Occ), s.cfg.isCounter n = true → s.cfg.isCycle n = false →
    s.counts n e = true →
    (s.lowAt n = 0 →
      s.chained n = false ∨ (s.xAt n).toNat + s.cfg.incr n e < 2 ^ s.cfg.width n →
      ∃ t, s.take (.count n e) = .next t
        ∧ t.xAt n = s.cfg.wrap n ((s.xAt n).toNat + s.cfg.incr n e)
        ∧ (∀ k, k ≠ n → t.xAt k = s.xAt k)
        ∧ (∀ k, k < 256 → t.ovsBit k = (s.ovsBit k
          || decide (k = n ∧ 2 ^ s.cfg.width n ≤ (s.xAt n).toNat + s.cfg.incr n e)))
        ∧ t = { s with x := t.x, ovs := t.ovs })
    ∧ (s.lowAt n ≠ 0 → ∃ u, s.take (.chainLo n) = .next u
      ∧ u.xAt n = s.cfg.wrap n ((s.xAt n).toNat + s.lowAt n) ∧ (∀ k, k ≠ n → u.xAt k = s.xAt k)
      ∧ (∀ k, k < 256 → u.ovsBit k = (s.ovsBit k || decide (k = n)))
      ∧ u.lowAt n = 0 ∧ (∀ k, k ≠ n → u.lowAt k = s.lowAt k)
      ∧ u = { s with x := u.x, ovs := u.ovs, lowPend := u.lowPend }
      ∧ u.counts n e = true ∧ s.take (.count n e) = u.take (.count n e))

/-- An occurrence is dropped unless the PMU is in RUN, the counter is enabled, counting is not prohibited, Debug
state does not block it and the event is the selected one (spec 40 sections 3 and 8, spec 41 section 2; that the
event's own Debug rule goes before PMCR.HDBG is assumption log 18). One leaves on the event bus exactly where
PMCR.X is 1 and it is not prohibited, and may be traced exactly where PMCR.TRO, if there is one, is 1 and it is
not prohibited (R219, R216; that buses and traces are only these two predicates is assumption log 25). -/
def Obligations.OccurrencesCountLeaveAndTraceOnlyWhereAllowed : Prop :=
  (∀ (s : State) (n : Nat) (e : Occ),
    s.st ≠ .run ∨ s.enabled n = false ∨ (∃ a, e.opst = some a ∧ s.env.allowed a = false)
      ∨ (e.debug = true ∧ s.cfg.dbgRule e.id = none ∧ s.cfg.hdbg = true ∧ s.pmcr.hdbg = true)
      ∨ (e.debug = true ∧ s.cfg.dbgRule e.id = none ∧ s.cfg.hdbg = false ∧ s.cfg.dbgDefault = .never)
      ∨ (e.debug = true ∧ s.cfg.dbgRule e.id = some .never)
      ∨ s.cfg.eventSel n (s.typerAt n) (s.filtrAt n) e = false →
    s.take (.count n e) = .next s)
  ∧ (∀ (s : State) (e : Occ),
    (s.exported e = true ↔ s.pmcr.x = true ∧ ∀ a, e.opst = some a → s.env.allowed a = true)
    ∧ (s.mayTrace e = true ↔ (s.cfg.tro = true → s.pmcr.tro = true)
      ∧ ∀ a, e.opst = some a → s.env.allowed a = true))

/-- `MonitorUpdate`: a monitor that is not a counter takes the new value, reduced to its width, and its flag is set
on entering its overflow condition, in RUN, enabled and allowed, by a change of what its PMEVTYPER and PMEVFILTR
select; otherwise nothing changes (R152, R153, R154; that the change carries what is selected is assumption log
29). -/
def Obligations.MonitorUpdateStoresValue : Prop :=
  ∀ (s : State) (n : Nat) (v : DWord) (ovf : Bool) (e : Occ),
    (s.cfg.impl n = true → s.cfg.isCounter n = false → s.st = .run → s.enabled n = true →
      s.prohibited e.opst = false → s.cfg.eventSel n (s.typerAt n) (s.filtrAt n) e = true →
      ∃ t, s.take (.monitorUpdate n v ovf e) = .next t ∧ t.xAt n = s.cfg.wrap n v.toNat
        ∧ (∀ k, k ≠ n → t.xAt k = s.xAt k)
        ∧ (∀ k, k < 256 → t.ovsBit k = (s.ovsBit k || decide (k = n) && (s.cfg.hasOvf n && ovf)))
        ∧ t = { s with x := t.x, ovs := t.ovs })
    ∧ (s.cfg.impl n = false ∨ s.cfg.isCounter n = true ∨ s.st ≠ .run ∨ s.enabled n = false
        ∨ s.prohibited e.opst = true ∨ s.cfg.eventSel n (s.typerAt n) (s.filtrAt n) e = false →
      s.take (.monitorUpdate n v ovf e) = .next s)

/-- Atomic chaining: when an even counter overflows and the odd counter above counts CHAIN, the same step wraps the
even one, sets its flag and adds one to the odd one, with its flag on overflow, where the odd one is enabled and
its counting is neither prohibited nor blocked (R202, R203). Where that flag of the even one freezes the PMU,
`Cfg.chainOnFreeze` says whether the odd one counts, `either` leaving it to a free value (R184, assumption log
16). -/
def Obligations.AtomicChainUpdatesBothCounters : Prop :=
  ∀ (s : State) (n : Nat) (e : Occ), s.cfg.wf = true → s.cfg.isCounter n = true →
    s.cfg.isCycle n = false → s.counts n e = true → s.lowAt n = 0 → s.chained n = true →
    s.cfg.chainAtomic = true → 2 ^ s.cfg.width n ≤ (s.xAt n).toNat + s.cfg.incr n e →
    let froze : Bool := decide (s.opState ≠ .wait) && decide ((s.raiseOvs n).opState = .wait)
    ∃ (t : State) (counted : Bool), s.take (.count n e) = .next t
      ∧ (froze = false ∨ s.cfg.chainOnFreeze = .counted →
        counted = (s.enabled (n + 1) && !s.haltBlocked (s.cfg.chainOcc e)))
      ∧ (froze = true → s.cfg.chainOnFreeze = .dropped → counted = false)
      ∧ (counted = true → s.enabled (n + 1) = true ∧ s.haltBlocked (s.cfg.chainOcc e) = false)
      ∧ t.xAt n = s.cfg.wrap n ((s.xAt n).toNat + s.cfg.incr n e)
      ∧ t.xAt (n + 1)
        = (if counted then s.cfg.wrap (n + 1) ((s.xAt (n + 1)).toNat + 1) else s.xAt (n + 1))
      ∧ (∀ k, k ≠ n → k ≠ n + 1 → t.xAt k = s.xAt k)
      ∧ (∀ k, t.ovsBit k = (s.ovsBit k || decide (k = n) || (decide (k = n + 1) && counted
        && decide (2 ^ s.cfg.width (n + 1) ≤ (s.xAt (n + 1)).toNat + 1))))
      ∧ t.draws = (if froze = true ∧ s.cfg.chainOnFreeze = .either then s.draws + 1 else s.draws)
      ∧ t = { s with x := t.x, ovs := t.ovs, draws := t.draws }

/-- Chaining that is not atomic updates the odd counter first, where it is enabled and its counting is neither
prohibited nor blocked, with its flag on overflow, and holds the even counter's wrap and flag back; `ChainLo` then
makes them. So a read of the wrapped even counter comes after the update of the odd one (R202, R204; high then low
is the spec's decision D37, and that the odd one counts whatever `Cfg.chainOnFreeze` says is assumption log
16). -/
def Obligations.NonAtomicChainUpdatesOddCounterFirst : Prop :=
  ∀ (s : State) (n : Nat) (e : Occ), s.cfg.wf = true → s.cfg.isCounter n = true →
    s.cfg.isCycle n = false → s.counts n e = true → s.lowAt n = 0 → s.chained n = true →
    s.cfg.chainAtomic = false → 2 ^ s.cfg.width n ≤ (s.xAt n).toNat + s.cfg.incr n e →
    let odd : Bool := s.enabled (n + 1) && !s.haltBlocked (s.cfg.chainOcc e)
    ∃ t u, s.take (.count n e) = .next t ∧ t.take (.chainLo n) = .next u
      ∧ t.lowAt n = s.cfg.incr n e ∧ (∀ k, k ≠ n → t.lowAt k = s.lowAt k)
      ∧ t.xAt (n + 1)
        = (if odd then s.cfg.wrap (n + 1) ((s.xAt (n + 1)).toNat + 1) else s.xAt (n + 1))
      ∧ (∀ k, k ≠ n + 1 → t.xAt k = s.xAt k)
      ∧ (∀ k, t.ovsBit k = (s.ovsBit k || (decide (k = n + 1) && odd
        && decide (2 ^ s.cfg.width (n + 1) ≤ (s.xAt (n + 1)).toNat + 1))))
      ∧ t = { s with x := t.x, ovs := t.ovs, lowPend := t.lowPend }
      ∧ u.xAt n = s.cfg.wrap n ((s.xAt n).toNat + s.cfg.incr n e) ∧ (∀ k, k ≠ n → u.xAt k = t.xAt k)
      ∧ (∀ k, u.ovsBit k = (t.ovsBit k || decide (k = n)))
      ∧ u.lowAt n = 0 ∧ (∀ k, k ≠ n → u.lowAt k = s.lowAt k)
      ∧ u = { t with x := u.x, ovs := u.ovs, lowPend := u.lowPend }

/-- `Cycle`: where the cycle counts and the prescaler is off, monitor 31 adds one, wrapping, with its flag on
overflow; where it does not count (not RUN, nor WAIT with `Cfg.ccInWait`; disabled; PMCR.DP in the second state)
nothing changes (R190, R191). -/
def Obligations.CycleCountsOrIsIgnored : Prop :=
  ∀ (s : State) (c : Occ),
    (s.cfg.cc = true → s.cycleCounts c = true → (s.cfg.ccd && s.pmcr.d) = false →
      ∃ t, s.take (.cycle c) = .next t ∧ t.xAt 31 = s.cfg.wrap 31 ((s.xAt 31).toNat + 1)
        ∧ (∀ k, k ≠ 31 → t.xAt k = s.xAt k)
        ∧ (∀ k, k < 256 → t.ovsBit k
          = (s.ovsBit k || decide (k = 31 ∧ 2 ^ s.cfg.width 31 ≤ (s.xAt 31).toNat + 1)))
        ∧ t = { s with x := t.x, ovs := t.ovs })
    ∧ (s.cfg.cc = false ∨ s.st = .stop ∨ (s.st = .wait ∧ s.cfg.ccInWait = false) ∨ s.enabled 31 = false
        ∨ (s.pmcr.dp = true ∧ c.second = true) →
      s.take (.cycle c) = .next s)

/-- With the prescaler on, any 64 counted cycles in succession count once, whatever its phase: they add one to
the cycle counter, set its flag if that overflows, and bring the phase back (R193, R190; the free phase is the
spec's decision D34). -/
def Obligations.PrescalerCountsOncePer64Cycles : Prop :=
  ∀ (s : State) (cs : List Occ) (rest : List Input), s.cfg.wf = true → s.cfg.cc = true →
    s.cfg.ccd = true → s.pmcr.d = true → cs.length = 64 → (∀ c ∈ cs, s.cycleCounts c = true) →
    s.inputs = cs.map .cycle ++ rest →
    ∃ t, s.steps 64 = some t ∧ t.presc = s.presc
      ∧ t.xAt 31 = s.cfg.wrap 31 ((s.xAt 31).toNat + 1) ∧ (∀ k, k ≠ 31 → t.xAt k = s.xAt k)
      ∧ (∀ k, k < 256 → t.ovsBit k
        = (s.ovsBit k || decide (k = 31 ∧ 2 ^ s.cfg.width 31 ≤ (s.xAt 31).toNat + 1)))
      ∧ t = { s with x := t.x, ovs := t.ovs, inputs := rest, irqPrev := t.irqPrev }

/-- The operating state: STOP where PMCR.E is 0; WAIT where E and an implemented FZO are 1 and an applicable
overflow flag is set; RUN otherwise; and `Settle` makes it the effective state (R181). Applicable are the flags of
all monitors that have one, enabled or not, but for an even counter whose odd counter counts CHAIN, where
`Cfg.fzoIgnoresChainedLow`, and for the cycle counter, where it counts in WAIT (R182). -/
def Obligations.OperatingStateTable : Prop :=
  ∀ (s : State),
    (s.pmcr.e = false → s.opState = .stop)
    ∧ (s.pmcr.e = true → (s.cfg.fzo && s.pmcr.fzo) = false → s.opState = .run)
    ∧ (s.pmcr.e = true → s.cfg.fzo = true → s.pmcr.fzo = true →
      (s.opState = .wait ↔ ∃ n, s.applicable n = true ∧ s.ovsBit n = true)
      ∧ (s.opState = .run ↔ ∀ n, s.applicable n = true → s.ovsBit n = false))
    ∧ (∀ n, s.applicable n = true ↔ s.cfg.impl n = true ∧ s.cfg.hasOvf n = true
      ∧ ¬ (s.cfg.chain = true ∧ s.cfg.fzoIgnoresChainedLow = true ∧ s.chained n = true)
      ∧ ¬ (s.cfg.cc = true ∧ n = 31 ∧ s.cfg.ccInWait = true))
    ∧ (∀ n, s.chained n = true ↔ n % 2 = 0 ∧ s.cfg.impl (n + 1) = true
      ∧ s.cfg.isCounter (n + 1) = true
      ∧ s.cfg.isChain (n + 1) (s.typerAt (n + 1)) (s.filtrAt (n + 1)) = true)
    ∧ s.take .settle = .next { s with st := s.opState }

/-- State changes occur in finite time: with a quiet environment, within one step for each held-back update and
each pending write and one more, every one of them has taken effect and the effective state is the operating
state (R143, R86, R204; the order of the idle steps is assumption log 8). -/
def Obligations.QuietMachineSettles : Prop :=
  ∀ (s : State), s.cfg.wf = true → s.inputs = [] → s.splits = [] → Sparse.wf 0 s.lowPend = true →
    ∃ t, s.steps (s.lowPend.length + s.pend.length + 1) = some t
      ∧ t.pend = [] ∧ t.lowPend = [] ∧ t.st = t.opState

/-- The interrupt request: asserted exactly when PMCR.E is 1 and some implemented monitor with an overflow
condition has its flag and its interrupt enable set; the wire, if there is one, follows it; in STOP it is never
asserted (R422, R430; a level equal to the condition is the spec's decision D16). -/
def Obligations.InterruptConditionIsEnabledOverflow : Prop :=
  ∀ (s : State),
    (s.irqCond = true ↔ s.pmcr.e = true
      ∧ ∃ n, s.cfg.impl n = true ∧ s.cfg.hasOvf n = true ∧ s.ovsBit n = true ∧ s.inten.getLsbD n = true)
    ∧ s.irqLevel = (s.cfg.hasIrq && s.irqCond)
    ∧ (s.opState = .stop → s.irqLevel = false)

/-! ### Reset, the invariants, the configuration -/

/-- `Reset`, from any state: the stated reset values, nothing in flight, and STOP; so the interrupt request is
false; and what is outside the PMU, system memory among it, stays (the spec's decision D11), a message write that
had not reached its target being one that still may (R461). Every other value is a free one inside the invariants
of R466. `State.reset` has the same values; its configuration and every other value are the model's choice (spec
70 section 1; assumption logs 2, 6 and 22). -/
def Obligations.ResetStopsThePmu : Prop :=
  let Stopped (t : State) : Prop :=
    t.pmcr.e = false ∧ t.irqcr2.msien = false
    ∧ (t.cfg.msi = true → t.cfg.msiNsCfg = true → t.irqcr2.nsmsi = t.cfg.nsmsiReset)
    ∧ (t.cfg.wf = true → t.cfg.ss = true → t.svrAt t.cfg.ssrIdx = 1)
    ∧ t.pend = [] ∧ t.lowPend = [] ∧ t.msiBusy = false ∧ t.irqPrev = false ∧ t.st = .stop
    ∧ t.opState = .stop ∧ t.irqLevel = false ∧ t.flight = none
  (∀ (s : State), ∃ t, s.take .reset = .next t ∧ Stopped t
    ∧ SameMemory s t ∧ t.sent = s.sent ∧ t.strays = s.strays ++ s.flight.toList ∧ t.cfg = s.cfg ∧ t.env = s.env ∧ t.inputs = s.inputs)
  ∧ Stopped State.reset

/-- The state the model starts in satisfies the invariants of R466 (but that an entry of `pend` was accepted
outside STOP, assumption log 11). That state's configuration and its zeros in every register whose reset value the spec does not state are
the model's choice (assumption logs 2 and 6). -/
def Obligations.ResetMeetsInvariant : Prop := Inv State.reset

/-- Every step of the machine, from every state that satisfies the invariants of R466, reachable or not, gives a
state that satisfies them (R466, but that an entry of `pend` was accepted outside STOP; that nothing is pending
under `Cfg.NA` rests on assumption log 11; and the canonical forms). -/
def Obligations.StepKeepsInvariant : Prop :=
  ∀ (s t : State), Inv s → step s = .next t → Inv t

/-- No step changes the configuration, so every identification register reads the same for ever; and only a
change of the environment changes the environment's levels (R9, R463). -/
def Obligations.ConfigurationNeverChanges : Prop :=
  ∀ (s t : State), step s = .next t →
    t.cfg = s.cfg ∧ ((∀ env rest, s.inputs ≠ .setEnv env :: rest) → t.env = s.env)

/-! ### The identification registers -/

/-- PMPIDR0 to PMPIDR7 and PMCIDR0 to PMCIDR3: each field the configuration gives, in its place, zero in bits
[31:8], and zero in all where the scheme is absent (R406). -/
def Obligations.PeripheralIdentificationReads : Prop :=
  ∀ (s : State) (p : Page) (ns : Bool),
    let a : Access := ⟨p, ns, .rd32⟩
    let reads (i : Instr) (w : Word) : Prop := exec i s = .next (s.answer (.data32 w))
    let byte (i : Instr) (hi lo : BitVec 4) : Prop := ∃ w : Word, reads i w
      ∧ w.extractLsb' 8 24 = 0 ∧ w.extractLsb' 4 4 = hi ∧ w.extractLsb' 0 4 = lo
    (s.cfg.hasPIDR = true →
      byte (.pmpidr0 a) (s.cfg.part.extractLsb' 4 4) (s.cfg.part.extractLsb' 0 4)
      ∧ byte (.pmpidr1 a) (s.cfg.jepId.extractLsb' 0 4) (s.cfg.part.extractLsb' 8 4)
      ∧ byte (.pmpidr2 a) (if s.cfg.part16 then s.cfg.part.extractLsb' 12 4 else s.cfg.revMajor)
        (8 ||| (s.cfg.jepId.extractLsb' 4 3).setWidth 4)
      ∧ byte (.pmpidr3 a) s.cfg.revMinor s.cfg.cmod ∧ byte (.pmpidr4 a) s.cfg.pidrSize s.cfg.jepCont
      ∧ reads (.pmcidr0 a) 0x0D ∧ reads (.pmcidr1 a) 0x90 ∧ reads (.pmcidr2 a) 0x05
      ∧ reads (.pmcidr3 a) 0xB1)
    ∧ (s.cfg.hasPIDR = false → ∀ i ∈ [Instr.pmpidr0 a, .pmpidr1 a, .pmpidr2 a, .pmpidr3 a, .pmpidr4 a,
      .pmcidr0 a, .pmcidr1 a, .pmcidr2 a, .pmcidr3 a], reads i 0)
    ∧ reads (.pmpidr5 a) 0 ∧ reads (.pmpidr6 a) 0 ∧ reads (.pmpidr7 a) 0

/-- PMDEVARCH and PMDEVTYPE, each in the view of its page, PMDEVID and PMIIDR: each field of the configuration in
its place; PMIIDR is zero where absent (spec 47 sections 3 and 5). -/
def Obligations.DeviceIdentificationReads : Prop :=
  ∀ (s : State) (p : Page) (ns : Bool),
    let a : Access := ⟨p, ns, .rd32⟩
    let reads (i : Instr) (w : Word) : Prop := exec i s = .next (s.answer (.data32 w))
    let id : PageId := if p = .p1 then s.cfg.id1 else s.cfg.id0
    (∃ w : Word, reads (.pmdevarch a) w ∧ w.extractLsb' 21 11 = 0x23B ∧ w.getLsbD 20 = true
      ∧ w.extractLsb' 16 4 = id.archRev ∧ w.extractLsb' 12 4 = id.archVer
      ∧ w.extractLsb' 0 12 = id.archPart)
    ∧ (∃ w : Word, reads (.pmdevtype a) w ∧ w.extractLsb' 8 24 = 0 ∧ w.extractLsb' 4 4 = id.devSub
      ∧ w.extractLsb' 0 4 = 6)
    ∧ reads (.pmdevid a) s.cfg.devid
    ∧ (s.cfg.hasIIDR = true → ∃ w : Word, reads (.pmiidr a) w
      ∧ w.extractLsb' 20 12 = s.cfg.part.extractLsb' 0 12 ∧ w.extractLsb' 16 4 = s.cfg.revMajor
      ∧ w.extractLsb' 12 4 = s.cfg.revMinor ∧ w.extractLsb' 8 4 = s.cfg.jepCont
      ∧ w.getLsbD 7 = false ∧ w.extractLsb' 0 7 = s.cfg.jepId)
    ∧ (s.cfg.hasIIDR = false → reads (.pmiidr a) 0)

/-- PMAUTHSTATUS: SNID and NSNID give the class's status and read zero where the Security Extensions are absent
and the PMU is of the other class; the invasive fields and bits [31:8] read zero; and a class's events may be
counted exactly when its status is enabled (R376, where the spec marks that last part as derived; assumption
log 24). -/
def Obligations.PmauthstatusShowsWhatIsAllowed : Prop :=
  ∀ (s : State) (p : Page) (ns : Bool),
    let status (x : Auth) (w : BitVec 2) : Prop :=
      (x = .notImplemented → w = 0) ∧ (x = .disabled → w = 2) ∧ (x = .enabled → w = 3)
    ∃ w : Word, exec (.pmauthstatus ⟨p, ns, .rd32⟩) s = .next (s.answer (.data32 w))
      ∧ w.extractLsb' 8 24 = 0 ∧ w.extractLsb' 4 2 = 0 ∧ w.extractLsb' 0 2 = 0
      ∧ (s.cfg.secExt = false ∧ s.cfg.pmuSecure = false → w.extractLsb' 6 2 = 0)
      ∧ (s.cfg.secExt = true ∨ s.cfg.pmuSecure = true → status s.env.snid (w.extractLsb' 6 2))
      ∧ (s.cfg.secExt = false ∧ s.cfg.pmuSecure = true → w.extractLsb' 2 2 = 0)
      ∧ (s.cfg.secExt = true ∨ s.cfg.pmuSecure = false → status s.env.nsnid (w.extractLsb' 2 2))
      ∧ (s.env.allowed .secure = true ↔ s.env.snid = .enabled)
      ∧ (s.env.allowed .nonSecure = true ↔ s.env.nsnid = .enabled)

/-- Software that decodes the two words of PMDEVAFF learns the affinity the configuration describes; the reserved
bits read zero; a PMU without affinity reads zero, and one with affinity never does (spec 47 section 4, where
the decoding is marked as derived). -/
def Obligations.PmdevaffDecodesToTheAffinity : Prop :=
  ∀ (s : State) (p : Page) (ns : Bool), s.cfg.wf = true → ∃ lo hi : Word,
    exec (.pmdevaffLo ⟨p, ns, .rd32⟩) s = .next (s.answer (.data32 lo))
    ∧ exec (.pmdevaffHi ⟨p, ns, .rd32⟩) s = .next (s.answer (.data32 hi))
    ∧ (s.cfg.hasAffinity = true → affDecode (hi ++ lo) = some s.cfg.aff.affinity
      ∧ hi.extractLsb' 8 24 = 0 ∧ lo.extractLsb' 25 5 = 0 ∧ ¬ (hi = 0 ∧ lo = 0))
    ∧ (s.cfg.hasAffinity = false → hi = 0 ∧ lo = 0)
end

