-- ==== Sys2Proof/Laws/Bits.lean ====
section
/-! SUPPORT. Laws of masks, single bits and the 32-bit windows of a 256-bit vector. -/

set_option Elab.async false

namespace Sys2Proof

theorem maskBits_lt (p : Nat → Bool) (k : Nat) : maskBits p k < 2 ^ k := by
  induction k with
  | zero => simp [maskBits]
  | succ k ih =>
    simp only [maskBits, Nat.pow_succ]
    split <;> omega

theorem testBit_maskBits (p : Nat → Bool) (k i : Nat) :
    (maskBits p k).testBit i = (decide (i < k) && p i) := by
  induction k with
  | zero => simp [maskBits]
  | succ k ih =>
    have hlt := maskBits_lt p k
    simp only [maskBits]
    by_cases hp : p k
    · simp only [hp, if_true]
      rcases Nat.lt_trichotomy i k with h | h | h
      · rw [Nat.add_comm, Nat.testBit_two_pow_add_gt h, ih]; simp [h, Nat.lt_succ_of_lt h]
      · subst h
        rw [Nat.add_comm, Nat.testBit_two_pow_add_eq, ih]; simp [hp]
      · rw [Nat.testBit_lt_two_pow]
        · simp; omega
        · calc maskBits p k + 2 ^ k < 2 ^ k + 2 ^ k := by omega
            _ = 2 ^ (k + 1) := by rw [Nat.pow_succ]; omega
            _ ≤ 2 ^ i := Nat.pow_le_pow_right (by omega) h
    · simp only [hp, Bool.false_eq_true, if_false, Nat.add_zero, ih]
      by_cases h : i = k
      · subst h; simp [hp]
      · have : i < k ↔ i < k + 1 := by omega
        simp [this]

@[simp] theorem getLsbD_maskOf (w : Nat) (p : Nat → Bool) (i : Nat) :
    (maskOf w p).getLsbD i = (decide (i < w) && p i) := by
  simp only [maskOf, BitVec.getLsbD_ofNat, testBit_maskBits]
  by_cases h : i < w <;> simp [h]

/-- A word stored under a mask keeps the fixed bits outside it (R240). -/
theorem masked_fixed (mask fixed v : Word) : masked mask fixed v &&& ~~~mask = fixed &&& ~~~mask := by
  unfold masked
  ext i hi
  simp only [BitVec.getElem_and, BitVec.getElem_or, BitVec.getElem_not]
  cases mask[i] <;> simp

/-- A word stored under a mask takes the written bits inside it (R240). -/
theorem masked_written (mask fixed v : Word) : masked mask fixed v &&& mask = v &&& mask := by
  unfold masked
  ext i hi
  simp only [BitVec.getElem_and, BitVec.getElem_or, BitVec.getElem_not]
  cases mask[i] <;> simp

namespace Machine

@[simp] theorem getLsbD_vecBit (n i : Nat) :
    (vecBit n).getLsbD i = (decide (i < 256) && decide (n = i)) := by
  simp only [vecBit, BitVec.getLsbD_ofNat, Nat.testBit_two_pow]

@[simp] theorem getLsbD_window (v : Vec) (m q : Nat) :
    (window v m).getLsbD q = (decide (q < 32) && v.getLsbD (32 * m + q)) := by
  simp [window]

@[simp] theorem getLsbD_atWindow (w : Word) (m i : Nat) :
    (atWindow w m).getLsbD i =
      (decide (i < 256) && (decide (32 * m ≤ i) && w.getLsbD (i - 32 * m))) := by
  simp only [atWindow, BitVec.getLsbD_shiftLeft, BitVec.getLsbD_setWidth]
  by_cases h : i < 256
  · by_cases h2 : 32 * m ≤ i
    · have : i - 32 * m < 256 := by omega
      have h3 : ¬ i < 32 * m := by omega
      simp [h, h2, this, h3]
    · simp [h2]
  · simp [h]

end Machine

end Sys2Proof
end

