-- ==== Sys2Proof/Laws/Config.lean ====
section
/-! SUPPORT. What a configuration's functions, and its well-formedness (R8), give. -/

set_option Elab.async false

namespace Sys2Proof

variable {c : Cfg} {n : Nat}

theorem Cfg.mon_mem {m : MonCfg} (h : c.mon n = some m) : m ∈ c.mons ∧ m.index = n := by
  unfold Cfg.mon at h
  exact ⟨List.mem_of_find?_eq_some h, by simpa using List.find?_some h⟩

theorem Cfg.monIs_eq_true {f : MonCfg → Bool} :
    c.monIs f n = true ↔ ∃ m, c.mon n = some m ∧ f m = true := by
  unfold Cfg.monIs
  cases c.mon n <;> simp

theorem Cfg.impl_of_monIs {f : MonCfg → Bool} (h : c.monIs f n = true) : c.impl n = true := by
  obtain ⟨m, hm, -⟩ := Cfg.monIs_eq_true.1 h
  simp [Cfg.impl, hm]

theorem Cfg.impl_mem_indices (h : c.impl n = true) : n ∈ c.indices := by
  unfold Cfg.impl at h
  obtain ⟨m, hm⟩ := Option.isSome_iff_exists.1 h
  have := Cfg.mon_mem hm
  exact List.mem_map.2 ⟨m, this.1, this.2⟩

theorem Cfg.impl_of_mem_indices (h : n ∈ c.indices) : c.impl n = true := by
  obtain ⟨m, hm, rfl⟩ := List.mem_map.1 h
  unfold Cfg.impl Cfg.mon
  rw [List.find?_isSome]
  exact ⟨m, hm, by simp⟩

theorem Cfg.width_eq_zero (h : c.impl n = false) : c.width n = 0 := by
  unfold Cfg.impl at h
  unfold Cfg.width
  cases hm : c.mon n <;> simp_all

/-- A value reduced to the width of a monitor fits it (R239). -/
theorem Cfg.wrap_lt (v : Nat) : (c.wrap n v).toNat < 2 ^ c.width n := by
  unfold Cfg.wrap
  rw [BitVec.toNat_ofNat]
  exact Nat.lt_of_le_of_lt (Nat.mod_le _ _) (Nat.mod_lt _ (Nat.two_pow_pos _))

/-- The value a monitor of at most 64 bits holds after a write (R239). -/
theorem Cfg.toNat_wrap (h : c.width n ≤ 64) (v : Nat) : (c.wrap n v).toNat = v % 2 ^ c.width n := by
  unfold Cfg.wrap
  rw [BitVec.toNat_ofNat]
  exact Nat.mod_eq_of_lt (Nat.lt_of_lt_of_le (Nat.mod_lt _ (Nat.two_pow_pos _))
    (Nat.pow_le_pow_right (by omega) h))

/-! ### Well-formed configurations -/

theorem Cfg.wf_parts (h : c.wf = true) : c.wfMonitors = true ∧ c.wfExtensions = true
    ∧ c.wfSnapshot = true ∧ c.wfInterface = true ∧ c.wfIdent = true := by
  simpa [Cfg.wf, Bool.and_eq_true, and_assoc] using h

theorem Cfg.wf_mon (h : c.wf = true) {m : MonCfg} (hm : m ∈ c.mons) :
    m.wf c = true ∧ m.index < (if c.wide then 128 else 256) := by
  have h1 := (Cfg.wf_parts h).1
  simp only [Cfg.wfMonitors, Bool.and_eq_true, List.all_eq_true, decide_eq_true_eq] at h1
  exact ⟨h1.1.2 m hm, h1.1.1.2 m hm⟩

theorem Cfg.index_lt (h : c.wf = true) (hn : c.impl n = true) :
    n < (if c.wide then 128 else 256) := by
  obtain ⟨m, hm⟩ := Option.isSome_iff_exists.1 hn
  obtain ⟨h1, rfl⟩ := Cfg.mon_mem hm
  exact (Cfg.wf_mon h h1).2

theorem Cfg.impl_lt_256 (h : c.wf = true) (hn : c.impl n = true) : n < 256 := by
  have := Cfg.index_lt h hn
  split at this <;> omega

theorem Cfg.size_le (h : c.wf = true) : c.size ≤ 64 := by
  have h1 := (Cfg.wf_parts h).1
  simp only [Cfg.wfMonitors, Bool.and_eq_true] at h1
  have hs := h1.1.1.1.1.1.1.1.1
  simp [sizes] at hs
  omega

theorem Cfg.width_le_size (h : c.wf = true) (n : Nat) : c.width n ≤ c.size := by
  unfold Cfg.width
  cases hm : c.mon n with
  | none => exact Nat.zero_le _
  | some m =>
    have h1 := (Cfg.wf_mon h (Cfg.mon_mem hm).1).1
    simp only [MonCfg.wf, Bool.and_eq_true, decide_eq_true_eq] at h1
    exact h1.1.1.1.1.1.1.1.2

theorem Cfg.width_le (h : c.wf = true) (n : Nat) : c.width n ≤ 64 :=
  Nat.le_trans (Cfg.width_le_size h n) (Cfg.size_le h)

theorem Cfg.width_pos (h : c.wf = true) (hn : c.impl n = true) : 1 ≤ c.width n := by
  obtain ⟨m, hm⟩ := Option.isSome_iff_exists.1 hn
  have h1 := (Cfg.wf_mon h (Cfg.mon_mem hm).1).1
  simp only [MonCfg.wf, Bool.and_eq_true, decide_eq_true_eq] at h1
  simp only [Cfg.width, hm]
  exact h1.1.1.1.1.1.1.1.1

/-- Every event counter has an overflow flag (R8). -/
theorem Cfg.hasFlag_of_isCounter (h : c.wf = true) (hn : c.isCounter n = true) :
    c.hasFlag n = true := by
  obtain ⟨m, hm, hc⟩ := Cfg.monIs_eq_true.1 hn
  have h1 := (Cfg.wf_mon h (Cfg.mon_mem hm).1).1
  simp only [MonCfg.wf, Bool.and_eq_true, Bool.or_eq_true, Bool.not_eq_true'] at h1
  have h2 := h1.1.1.1.1.1.1.2
  simp only [hc, Bool.true_eq_false, false_or] at h2
  simp [Cfg.hasFlag, Cfg.impl_of_monIs hn, Cfg.hasOvf, Cfg.monIs, hm, h2]

/-- The cycle counter is a counter with an overflow flag and an event select register (R187). -/
theorem Cfg.cc_parts (h : c.wf = true) (hc : c.cc = true) :
    c.impl 31 = true ∧ c.isCounter 31 = true ∧ c.hasTyper 31 = true ∧ c.hasFlag 31 = true := by
  have h1 := (Cfg.wf_parts h).2.1
  simp only [Cfg.wfExtensions, Bool.and_eq_true, Bool.or_eq_true, Bool.not_eq_true'] at h1
  have h2 := h1.1.1.1.1.1
  simp only [hc, Bool.true_eq_false, false_or] at h2
  exact ⟨h2.1.1, h2.1.2, h2.2, Cfg.hasFlag_of_isCounter h h2.1.2⟩

/-- Where a slot of the snapshot map is found, the map has it. -/
theorem Cfg.svrSlot_slotIdx {slot : SvrSlot} (h : c.slotIdx slot < c.svrMap.length) :
    c.svrSlot (c.slotIdx slot) = slot := by
  unfold Cfg.svrSlot
  rw [List.getD_eq_getElem _ _ h]
  have := List.findIdx_getElem (w := h)
  exact of_decide_eq_true this

/-- The snapshot map has 64 slots and PMSSSR is one of them (R213). -/
theorem Cfg.ss_parts (h : c.wf = true) (hs : c.ss = true) :
    c.svrMap.length = 64 ∧ c.ssrIdx < 64 ∧ c.svrSlot c.ssrIdx = .ssr
      ∧ ∀ k, k < 64 → c.wfSlot k = true := by
  have h1 := (Cfg.wf_parts h).2.2.1
  simp only [Cfg.wfSnapshot, Bool.and_eq_true, Bool.or_eq_true, Bool.not_eq_true', hs,
    Bool.true_eq_false, false_or, decide_eq_true_eq, beq_iff_eq, List.all_eq_true, List.mem_range] at h1
  obtain ⟨-, ⟨⟨hl, hi⟩, hk⟩, -⟩ := h1
  exact ⟨hl, hi, Cfg.svrSlot_slotIdx (by rw [hl]; exact hi), hk⟩

/-- PMSSSR is at one slot of the map (R213). -/
theorem Cfg.ssr_unique (h : c.wf = true) (hs : c.ss = true) {k : Nat} (hk : k < 64)
    (he : c.svrSlot k = .ssr) : c.ssrIdx = k := by
  have := (Cfg.ss_parts h hs).2.2.2 k hk
  simp only [Cfg.wfSlot, he, decide_eq_true_eq] at this
  exact this

end Sys2Proof
end

