-- ==== Sys2Proof/Laws/Sparse.lean ====
section
/-! SUPPORT. Laws of sparse tables: a read after a write, and the canonical form. -/

set_option Elab.async false

namespace Sys2Proof.Machine

variable {α : Type} {d v : α} {n k : Nat} {m : List (Nat × α)}

@[simp] theorem Sparse.get_nil (d : α) (n : Nat) : Sparse.get d [] n = d := rfl

theorem Sparse.get_insert (h : Sparse.get d m n = d) (hm : ∀ p ∈ m, p.1 ≠ n) :
    Sparse.get d (Sparse.insert n v m) k = if n = k then v else Sparse.get d m k := by
  induction m with
  | nil => simp [Sparse.insert, Sparse.get]
  | cons p rest ih =>
    obtain ⟨j, w⟩ := p
    have hj : j ≠ n := hm _ List.mem_cons_self
    have hr := ih (by simpa [Sparse.get, hj] using h) (fun q hq => hm q (List.mem_cons_of_mem _ hq))
    simp only [Sparse.insert]
    split
    · simp only [Sparse.get]
    · simp only [Sparse.get, hr]
      by_cases hjk : j = k
      · simp [hjk, show n ≠ k from fun e => hj (hjk.trans e.symm)]
      · simp [hjk]

theorem Sparse.get_erase :
    Sparse.get d (Sparse.erase n m) k = if n = k then d else Sparse.get d m k := by
  induction m with
  | nil => simp [Sparse.erase, Sparse.get]
  | cons p rest ih =>
    obtain ⟨j, w⟩ := p
    simp only [Sparse.erase] at ih ⊢
    by_cases hj : j = n
    · subst hj
      simp only [List.filter, bne_self_eq_false, ih, Sparse.get]
      by_cases hk : j = k <;> simp [hk]
    · have : (j != n) = true := by simpa using hj
      simp only [List.filter, this, Sparse.get, ih]
      by_cases hk : j = k
      · simp [hk, show n ≠ k from fun e => hj (hk.trans e.symm)]
      · simp [hk]

theorem Sparse.mem_erase {p : Nat × α} : p ∈ Sparse.erase n m ↔ p ∈ m ∧ p.1 ≠ n := by
  simp [Sparse.erase]

/-- A read after a write. -/
theorem Sparse.get_set [DecidableEq α] :
    Sparse.get d (Sparse.set d m n v) k = if n = k then v else Sparse.get d m k := by
  unfold Sparse.set
  split
  · rename_i h; subst h; exact Sparse.get_erase
  · rw [Sparse.get_insert (by simp [Sparse.get_erase]) (fun p hp => (Sparse.mem_erase.1 hp).2),
      Sparse.get_erase]
    split <;> rfl

@[simp] theorem Sparse.get_set_self [DecidableEq α] : Sparse.get d (Sparse.set d m n v) n = v := by
  simp [Sparse.get_set]

theorem Sparse.sorted_cons {p : Nat × α} :
    Sparse.sorted (p :: m) = true ↔ (∀ q ∈ m, p.1 < q.1) ∧ Sparse.sorted m = true := by
  induction m generalizing p with
  | nil => simp [Sparse.sorted]
  | cons q rest ih =>
    simp only [Sparse.sorted, Bool.and_eq_true, decide_eq_true_eq]
    constructor
    · rintro ⟨h, hs⟩
      refine ⟨fun r hr => ?_, hs⟩
      rcases List.mem_cons.1 hr with rfl | hr
      · exact h
      · exact Nat.lt_trans h ((ih.1 hs).1 r hr)
    · rintro ⟨h, hs⟩
      exact ⟨h q List.mem_cons_self, hs⟩

theorem Sparse.sorted_erase (h : Sparse.sorted m = true) : Sparse.sorted (Sparse.erase n m) = true := by
  induction m with
  | nil => rfl
  | cons p rest ih =>
    have hc := Sparse.sorted_cons.1 h
    simp only [Sparse.erase, List.filter]
    split
    · exact Sparse.sorted_cons.2 ⟨fun q hq => hc.1 q (List.mem_filter.1 hq).1, ih hc.2⟩
    · exact ih hc.2

theorem Sparse.mem_insert {p : Nat × α} : p ∈ Sparse.insert n v m ↔ p = (n, v) ∨ p ∈ m := by
  induction m with
  | nil => simp [Sparse.insert]
  | cons q rest ih =>
    simp only [Sparse.insert]
    split
    · simp
    · simp only [List.mem_cons, ih]; tauto

theorem Sparse.sorted_insert (h : Sparse.sorted m = true) (hm : ∀ p ∈ m, p.1 ≠ n) :
    Sparse.sorted (Sparse.insert n v m) = true := by
  induction m with
  | nil => rfl
  | cons p rest ih =>
    have hc := Sparse.sorted_cons.1 h
    simp only [Sparse.insert]
    split
    · rename_i hlt
      refine Sparse.sorted_cons.2 ⟨fun q hq => ?_, h⟩
      rcases List.mem_cons.1 hq with rfl | hq
      · exact hlt
      · exact Nat.lt_trans hlt (hc.1 q hq)
    · rename_i hge
      have hne := hm p List.mem_cons_self
      refine Sparse.sorted_cons.2 ⟨fun q hq => ?_, ih hc.2 (fun q hq => hm q (List.mem_cons_of_mem _ hq))⟩
      rcases Sparse.mem_insert.1 hq with rfl | hq
      · simp only at hge hne ⊢; omega
      · exact hc.1 q hq

/-- A write keeps the canonical form. -/
theorem Sparse.wf_set [DecidableEq α] (h : Sparse.wf d m = true) :
    Sparse.wf d (Sparse.set d m n v) = true := by
  simp only [Sparse.wf, Bool.and_eq_true, List.all_eq_true, decide_eq_true_eq] at h ⊢
  unfold Sparse.set
  split
  · exact ⟨Sparse.sorted_erase h.1, fun p hp => h.2 p (Sparse.mem_erase.1 hp).1⟩
  · rename_i hv
    refine ⟨Sparse.sorted_insert (Sparse.sorted_erase h.1) (fun p hp => (Sparse.mem_erase.1 hp).2),
      fun p hp => ?_⟩
    rcases Sparse.mem_insert.1 hp with rfl | hp
    · exact hv
    · exact h.2 p (Sparse.mem_erase.1 hp).1

end Sys2Proof.Machine
end

