-- ==== Sys2Proof/Laws/State.lean ====
section
/-! SUPPORT. One lemma per field per update, and what each register array reads after each update. -/

set_option Elab.async false

namespace Sys2Proof.Machine

variable (s : State)

/-! `putX` -/

@[simp] theorem State.putX_cfg (n : Nat) (v : DWord) : (s.putX n v).cfg = s.cfg := rfl
@[simp] theorem State.putX_env (n : Nat) (v : DWord) : (s.putX n v).env = s.env := rfl
@[simp] theorem State.putX_inputs (n : Nat) (v : DWord) : (s.putX n v).inputs = s.inputs := rfl
@[simp] theorem State.putX_splits (n : Nat) (v : DWord) : (s.putX n v).splits = s.splits := rfl
@[simp] theorem State.putX_resp (n : Nat) (v : DWord) : (s.putX n v).resp = s.resp := rfl
@[simp] theorem State.putX_draws (n : Nat) (v : DWord) : (s.putX n v).draws = s.draws := rfl
@[simp] theorem State.putX_sent (n : Nat) (v : DWord) : (s.putX n v).sent = s.sent := rfl
@[simp] theorem State.putX_flight (n : Nat) (v : DWord) : (s.putX n v).flight = s.flight := rfl
@[simp] theorem State.putX_strays (n : Nat) (v : DWord) : (s.putX n v).strays = s.strays := rfl
@[simp] theorem State.putX_memS (n : Nat) (v : DWord) : (s.putX n v).memS = s.memS := rfl
@[simp] theorem State.putX_memNS (n : Nat) (v : DWord) : (s.putX n v).memNS = s.memNS := rfl
@[simp] theorem State.putX_x (n : Nat) (v : DWord) : (s.putX n v).x = Sparse.set 0 s.x n v := rfl
@[simp] theorem State.putX_typer (n : Nat) (v : DWord) : (s.putX n v).typer = s.typer := rfl
@[simp] theorem State.putX_filtr (n : Nat) (v : DWord) : (s.putX n v).filtr = s.filtr := rfl
@[simp] theorem State.putX_svr (n : Nat) (v : DWord) : (s.putX n v).svr = s.svr := rfl
@[simp] theorem State.putX_impdef (n : Nat) (v : DWord) : (s.putX n v).impdef = s.impdef := rfl
@[simp] theorem State.putX_lowPend (n : Nat) (v : DWord) : (s.putX n v).lowPend = s.lowPend := rfl
@[simp] theorem State.putX_cnten (n : Nat) (v : DWord) : (s.putX n v).cnten = s.cnten := rfl
@[simp] theorem State.putX_inten (n : Nat) (v : DWord) : (s.putX n v).inten = s.inten := rfl
@[simp] theorem State.putX_ovs (n : Nat) (v : DWord) : (s.putX n v).ovs = s.ovs := rfl
@[simp] theorem State.putX_pmcr (n : Nat) (v : DWord) : (s.putX n v).pmcr = s.pmcr := rfl
@[simp] theorem State.putX_st (n : Nat) (v : DWord) : (s.putX n v).st = s.st := rfl
@[simp] theorem State.putX_pmssrr (n : Nat) (v : DWord) : (s.putX n v).pmssrr = s.pmssrr := rfl
@[simp] theorem State.putX_irqcr0 (n : Nat) (v : DWord) : (s.putX n v).irqcr0 = s.irqcr0 := rfl
@[simp] theorem State.putX_irqcr1 (n : Nat) (v : DWord) : (s.putX n v).irqcr1 = s.irqcr1 := rfl
@[simp] theorem State.putX_irqcr2 (n : Nat) (v : DWord) : (s.putX n v).irqcr2 = s.irqcr2 := rfl
@[simp] theorem State.putX_irqErr (n : Nat) (v : DWord) : (s.putX n v).irqErr = s.irqErr := rfl
@[simp] theorem State.putX_pend (n : Nat) (v : DWord) : (s.putX n v).pend = s.pend := rfl
@[simp] theorem State.putX_presc (n : Nat) (v : DWord) : (s.putX n v).presc = s.presc := rfl
@[simp] theorem State.putX_msiBusy (n : Nat) (v : DWord) : (s.putX n v).msiBusy = s.msiBusy := rfl
@[simp] theorem State.putX_irqPrev (n : Nat) (v : DWord) : (s.putX n v).irqPrev = s.irqPrev := rfl
@[simp] theorem State.putX_xAt (n : Nat) (v : DWord) (k : Nat) :
    (s.putX n v).xAt k = if n = k then v else s.xAt k := Sparse.get_set
@[simp] theorem State.putX_typerAt (n : Nat) (v : DWord) (k : Nat) : (s.putX n v).typerAt k = s.typerAt k := rfl
@[simp] theorem State.putX_filtrAt (n : Nat) (v : DWord) (k : Nat) : (s.putX n v).filtrAt k = s.filtrAt k := rfl
@[simp] theorem State.putX_svrAt (n : Nat) (v : DWord) (k : Nat) : (s.putX n v).svrAt k = s.svrAt k := rfl
@[simp] theorem State.putX_impdefAt (n : Nat) (v : DWord) (k : Nat) : (s.putX n v).impdefAt k = s.impdefAt k := rfl
@[simp] theorem State.putX_lowAt (n : Nat) (v : DWord) (k : Nat) : (s.putX n v).lowAt k = s.lowAt k := rfl

/-! `putTyper` -/

@[simp] theorem State.putTyper_cfg (n : Nat) (v : Word) : (s.putTyper n v).cfg = s.cfg := rfl
@[simp] theorem State.putTyper_env (n : Nat) (v : Word) : (s.putTyper n v).env = s.env := rfl
@[simp] theorem State.putTyper_inputs (n : Nat) (v : Word) : (s.putTyper n v).inputs = s.inputs := rfl
@[simp] theorem State.putTyper_splits (n : Nat) (v : Word) : (s.putTyper n v).splits = s.splits := rfl
@[simp] theorem State.putTyper_resp (n : Nat) (v : Word) : (s.putTyper n v).resp = s.resp := rfl
@[simp] theorem State.putTyper_draws (n : Nat) (v : Word) : (s.putTyper n v).draws = s.draws := rfl
@[simp] theorem State.putTyper_sent (n : Nat) (v : Word) : (s.putTyper n v).sent = s.sent := rfl
@[simp] theorem State.putTyper_flight (n : Nat) (v : Word) : (s.putTyper n v).flight = s.flight := rfl
@[simp] theorem State.putTyper_strays (n : Nat) (v : Word) : (s.putTyper n v).strays = s.strays := rfl
@[simp] theorem State.putTyper_memS (n : Nat) (v : Word) : (s.putTyper n v).memS = s.memS := rfl
@[simp] theorem State.putTyper_memNS (n : Nat) (v : Word) : (s.putTyper n v).memNS = s.memNS := rfl
@[simp] theorem State.putTyper_x (n : Nat) (v : Word) : (s.putTyper n v).x = s.x := rfl
@[simp] theorem State.putTyper_typer (n : Nat) (v : Word) : (s.putTyper n v).typer = Sparse.set 0 s.typer n v := rfl
@[simp] theorem State.putTyper_filtr (n : Nat) (v : Word) : (s.putTyper n v).filtr = s.filtr := rfl
@[simp] theorem State.putTyper_svr (n : Nat) (v : Word) : (s.putTyper n v).svr = s.svr := rfl
@[simp] theorem State.putTyper_impdef (n : Nat) (v : Word) : (s.putTyper n v).impdef = s.impdef := rfl
@[simp] theorem State.putTyper_lowPend (n : Nat) (v : Word) : (s.putTyper n v).lowPend = s.lowPend := rfl
@[simp] theorem State.putTyper_cnten (n : Nat) (v : Word) : (s.putTyper n v).cnten = s.cnten := rfl
@[simp] theorem State.putTyper_inten (n : Nat) (v : Word) : (s.putTyper n v).inten = s.inten := rfl
@[simp] theorem State.putTyper_ovs (n : Nat) (v : Word) : (s.putTyper n v).ovs = s.ovs := rfl
@[simp] theorem State.putTyper_pmcr (n : Nat) (v : Word) : (s.putTyper n v).pmcr = s.pmcr := rfl
@[simp] theorem State.putTyper_st (n : Nat) (v : Word) : (s.putTyper n v).st = s.st := rfl
@[simp] theorem State.putTyper_pmssrr (n : Nat) (v : Word) : (s.putTyper n v).pmssrr = s.pmssrr := rfl
@[simp] theorem State.putTyper_irqcr0 (n : Nat) (v : Word) : (s.putTyper n v).irqcr0 = s.irqcr0 := rfl
@[simp] theorem State.putTyper_irqcr1 (n : Nat) (v : Word) : (s.putTyper n v).irqcr1 = s.irqcr1 := rfl
@[simp] theorem State.putTyper_irqcr2 (n : Nat) (v : Word) : (s.putTyper n v).irqcr2 = s.irqcr2 := rfl
@[simp] theorem State.putTyper_irqErr (n : Nat) (v : Word) : (s.putTyper n v).irqErr = s.irqErr := rfl
@[simp] theorem State.putTyper_pend (n : Nat) (v : Word) : (s.putTyper n v).pend = s.pend := rfl
@[simp] theorem State.putTyper_presc (n : Nat) (v : Word) : (s.putTyper n v).presc = s.presc := rfl
@[simp] theorem State.putTyper_msiBusy (n : Nat) (v : Word) : (s.putTyper n v).msiBusy = s.msiBusy := rfl
@[simp] theorem State.putTyper_irqPrev (n : Nat) (v : Word) : (s.putTyper n v).irqPrev = s.irqPrev := rfl
@[simp] theorem State.putTyper_xAt (n : Nat) (v : Word) (k : Nat) : (s.putTyper n v).xAt k = s.xAt k := rfl
@[simp] theorem State.putTyper_typerAt (n : Nat) (v : Word) (k : Nat) :
    (s.putTyper n v).typerAt k = if n = k then v else s.typerAt k := Sparse.get_set
@[simp] theorem State.putTyper_filtrAt (n : Nat) (v : Word) (k : Nat) : (s.putTyper n v).filtrAt k = s.filtrAt k := rfl
@[simp] theorem State.putTyper_svrAt (n : Nat) (v : Word) (k : Nat) : (s.putTyper n v).svrAt k = s.svrAt k := rfl
@[simp] theorem State.putTyper_impdefAt (n : Nat) (v : Word) (k : Nat) : (s.putTyper n v).impdefAt k = s.impdefAt k := rfl
@[simp] theorem State.putTyper_lowAt (n : Nat) (v : Word) (k : Nat) : (s.putTyper n v).lowAt k = s.lowAt k := rfl

/-! `putFiltr` -/

@[simp] theorem State.putFiltr_cfg (n : Nat) (v : Word) : (s.putFiltr n v).cfg = s.cfg := rfl
@[simp] theorem State.putFiltr_env (n : Nat) (v : Word) : (s.putFiltr n v).env = s.env := rfl
@[simp] theorem State.putFiltr_inputs (n : Nat) (v : Word) : (s.putFiltr n v).inputs = s.inputs := rfl
@[simp] theorem State.putFiltr_splits (n : Nat) (v : Word) : (s.putFiltr n v).splits = s.splits := rfl
@[simp] theorem State.putFiltr_resp (n : Nat) (v : Word) : (s.putFiltr n v).resp = s.resp := rfl
@[simp] theorem State.putFiltr_draws (n : Nat) (v : Word) : (s.putFiltr n v).draws = s.draws := rfl
@[simp] theorem State.putFiltr_sent (n : Nat) (v : Word) : (s.putFiltr n v).sent = s.sent := rfl
@[simp] theorem State.putFiltr_flight (n : Nat) (v : Word) : (s.putFiltr n v).flight = s.flight := rfl
@[simp] theorem State.putFiltr_strays (n : Nat) (v : Word) : (s.putFiltr n v).strays = s.strays := rfl
@[simp] theorem State.putFiltr_memS (n : Nat) (v : Word) : (s.putFiltr n v).memS = s.memS := rfl
@[simp] theorem State.putFiltr_memNS (n : Nat) (v : Word) : (s.putFiltr n v).memNS = s.memNS := rfl
@[simp] theorem State.putFiltr_x (n : Nat) (v : Word) : (s.putFiltr n v).x = s.x := rfl
@[simp] theorem State.putFiltr_typer (n : Nat) (v : Word) : (s.putFiltr n v).typer = s.typer := rfl
@[simp] theorem State.putFiltr_filtr (n : Nat) (v : Word) : (s.putFiltr n v).filtr = Sparse.set 0 s.filtr n v := rfl
@[simp] theorem State.putFiltr_svr (n : Nat) (v : Word) : (s.putFiltr n v).svr = s.svr := rfl
@[simp] theorem State.putFiltr_impdef (n : Nat) (v : Word) : (s.putFiltr n v).impdef = s.impdef := rfl
@[simp] theorem State.putFiltr_lowPend (n : Nat) (v : Word) : (s.putFiltr n v).lowPend = s.lowPend := rfl
@[simp] theorem State.putFiltr_cnten (n : Nat) (v : Word) : (s.putFiltr n v).cnten = s.cnten := rfl
@[simp] theorem State.putFiltr_inten (n : Nat) (v : Word) : (s.putFiltr n v).inten = s.inten := rfl
@[simp] theorem State.putFiltr_ovs (n : Nat) (v : Word) : (s.putFiltr n v).ovs = s.ovs := rfl
@[simp] theorem State.putFiltr_pmcr (n : Nat) (v : Word) : (s.putFiltr n v).pmcr = s.pmcr := rfl
@[simp] theorem State.putFiltr_st (n : Nat) (v : Word) : (s.putFiltr n v).st = s.st := rfl
@[simp] theorem State.putFiltr_pmssrr (n : Nat) (v : Word) : (s.putFiltr n v).pmssrr = s.pmssrr := rfl
@[simp] theorem State.putFiltr_irqcr0 (n : Nat) (v : Word) : (s.putFiltr n v).irqcr0 = s.irqcr0 := rfl
@[simp] theorem State.putFiltr_irqcr1 (n : Nat) (v : Word) : (s.putFiltr n v).irqcr1 = s.irqcr1 := rfl
@[simp] theorem State.putFiltr_irqcr2 (n : Nat) (v : Word) : (s.putFiltr n v).irqcr2 = s.irqcr2 := rfl
@[simp] theorem State.putFiltr_irqErr (n : Nat) (v : Word) : (s.putFiltr n v).irqErr = s.irqErr := rfl
@[simp] theorem State.putFiltr_pend (n : Nat) (v : Word) : (s.putFiltr n v).pend = s.pend := rfl
@[simp] theorem State.putFiltr_presc (n : Nat) (v : Word) : (s.putFiltr n v).presc = s.presc := rfl
@[simp] theorem State.putFiltr_msiBusy (n : Nat) (v : Word) : (s.putFiltr n v).msiBusy = s.msiBusy := rfl
@[simp] theorem State.putFiltr_irqPrev (n : Nat) (v : Word) : (s.putFiltr n v).irqPrev = s.irqPrev := rfl
@[simp] theorem State.putFiltr_xAt (n : Nat) (v : Word) (k : Nat) : (s.putFiltr n v).xAt k = s.xAt k := rfl
@[simp] theorem State.putFiltr_typerAt (n : Nat) (v : Word) (k : Nat) : (s.putFiltr n v).typerAt k = s.typerAt k := rfl
@[simp] theorem State.putFiltr_filtrAt (n : Nat) (v : Word) (k : Nat) :
    (s.putFiltr n v).filtrAt k = if n = k then v else s.filtrAt k := Sparse.get_set
@[simp] theorem State.putFiltr_svrAt (n : Nat) (v : Word) (k : Nat) : (s.putFiltr n v).svrAt k = s.svrAt k := rfl
@[simp] theorem State.putFiltr_impdefAt (n : Nat) (v : Word) (k : Nat) : (s.putFiltr n v).impdefAt k = s.impdefAt k := rfl
@[simp] theorem State.putFiltr_lowAt (n : Nat) (v : Word) (k : Nat) : (s.putFiltr n v).lowAt k = s.lowAt k := rfl

/-! `putSvr` -/

@[simp] theorem State.putSvr_cfg (n : Nat) (v : Word) : (s.putSvr n v).cfg = s.cfg := rfl
@[simp] theorem State.putSvr_env (n : Nat) (v : Word) : (s.putSvr n v).env = s.env := rfl
@[simp] theorem State.putSvr_inputs (n : Nat) (v : Word) : (s.putSvr n v).inputs = s.inputs := rfl
@[simp] theorem State.putSvr_splits (n : Nat) (v : Word) : (s.putSvr n v).splits = s.splits := rfl
@[simp] theorem State.putSvr_resp (n : Nat) (v : Word) : (s.putSvr n v).resp = s.resp := rfl
@[simp] theorem State.putSvr_draws (n : Nat) (v : Word) : (s.putSvr n v).draws = s.draws := rfl
@[simp] theorem State.putSvr_sent (n : Nat) (v : Word) : (s.putSvr n v).sent = s.sent := rfl
@[simp] theorem State.putSvr_flight (n : Nat) (v : Word) : (s.putSvr n v).flight = s.flight := rfl
@[simp] theorem State.putSvr_strays (n : Nat) (v : Word) : (s.putSvr n v).strays = s.strays := rfl
@[simp] theorem State.putSvr_memS (n : Nat) (v : Word) : (s.putSvr n v).memS = s.memS := rfl
@[simp] theorem State.putSvr_memNS (n : Nat) (v : Word) : (s.putSvr n v).memNS = s.memNS := rfl
@[simp] theorem State.putSvr_x (n : Nat) (v : Word) : (s.putSvr n v).x = s.x := rfl
@[simp] theorem State.putSvr_typer (n : Nat) (v : Word) : (s.putSvr n v).typer = s.typer := rfl
@[simp] theorem State.putSvr_filtr (n : Nat) (v : Word) : (s.putSvr n v).filtr = s.filtr := rfl
@[simp] theorem State.putSvr_svr (n : Nat) (v : Word) : (s.putSvr n v).svr = Sparse.set 0 s.svr n v := rfl
@[simp] theorem State.putSvr_impdef (n : Nat) (v : Word) : (s.putSvr n v).impdef = s.impdef := rfl
@[simp] theorem State.putSvr_lowPend (n : Nat) (v : Word) : (s.putSvr n v).lowPend = s.lowPend := rfl
@[simp] theorem State.putSvr_cnten (n : Nat) (v : Word) : (s.putSvr n v).cnten = s.cnten := rfl
@[simp] theorem State.putSvr_inten (n : Nat) (v : Word) : (s.putSvr n v).inten = s.inten := rfl
@[simp] theorem State.putSvr_ovs (n : Nat) (v : Word) : (s.putSvr n v).ovs = s.ovs := rfl
@[simp] theorem State.putSvr_pmcr (n : Nat) (v : Word) : (s.putSvr n v).pmcr = s.pmcr := rfl
@[simp] theorem State.putSvr_st (n : Nat) (v : Word) : (s.putSvr n v).st = s.st := rfl
@[simp] theorem State.putSvr_pmssrr (n : Nat) (v : Word) : (s.putSvr n v).pmssrr = s.pmssrr := rfl
@[simp] theorem State.putSvr_irqcr0 (n : Nat) (v : Word) : (s.putSvr n v).irqcr0 = s.irqcr0 := rfl
@[simp] theorem State.putSvr_irqcr1 (n : Nat) (v : Word) : (s.putSvr n v).irqcr1 = s.irqcr1 := rfl
@[simp] theorem State.putSvr_irqcr2 (n : Nat) (v : Word) : (s.putSvr n v).irqcr2 = s.irqcr2 := rfl
@[simp] theorem State.putSvr_irqErr (n : Nat) (v : Word) : (s.putSvr n v).irqErr = s.irqErr := rfl
@[simp] theorem State.putSvr_pend (n : Nat) (v : Word) : (s.putSvr n v).pend = s.pend := rfl
@[simp] theorem State.putSvr_presc (n : Nat) (v : Word) : (s.putSvr n v).presc = s.presc := rfl
@[simp] theorem State.putSvr_msiBusy (n : Nat) (v : Word) : (s.putSvr n v).msiBusy = s.msiBusy := rfl
@[simp] theorem State.putSvr_irqPrev (n : Nat) (v : Word) : (s.putSvr n v).irqPrev = s.irqPrev := rfl
@[simp] theorem State.putSvr_xAt (n : Nat) (v : Word) (k : Nat) : (s.putSvr n v).xAt k = s.xAt k := rfl
@[simp] theorem State.putSvr_typerAt (n : Nat) (v : Word) (k : Nat) : (s.putSvr n v).typerAt k = s.typerAt k := rfl
@[simp] theorem State.putSvr_filtrAt (n : Nat) (v : Word) (k : Nat) : (s.putSvr n v).filtrAt k = s.filtrAt k := rfl
@[simp] theorem State.putSvr_svrAt (n : Nat) (v : Word) (k : Nat) :
    (s.putSvr n v).svrAt k = if n = k then v else s.svrAt k := Sparse.get_set
@[simp] theorem State.putSvr_impdefAt (n : Nat) (v : Word) (k : Nat) : (s.putSvr n v).impdefAt k = s.impdefAt k := rfl
@[simp] theorem State.putSvr_lowAt (n : Nat) (v : Word) (k : Nat) : (s.putSvr n v).lowAt k = s.lowAt k := rfl

/-! `putImpdef` -/

@[simp] theorem State.putImpdef_cfg (n : Nat) (v : Word) : (s.putImpdef n v).cfg = s.cfg := rfl
@[simp] theorem State.putImpdef_env (n : Nat) (v : Word) : (s.putImpdef n v).env = s.env := rfl
@[simp] theorem State.putImpdef_inputs (n : Nat) (v : Word) : (s.putImpdef n v).inputs = s.inputs := rfl
@[simp] theorem State.putImpdef_splits (n : Nat) (v : Word) : (s.putImpdef n v).splits = s.splits := rfl
@[simp] theorem State.putImpdef_resp (n : Nat) (v : Word) : (s.putImpdef n v).resp = s.resp := rfl
@[simp] theorem State.putImpdef_draws (n : Nat) (v : Word) : (s.putImpdef n v).draws = s.draws := rfl
@[simp] theorem State.putImpdef_sent (n : Nat) (v : Word) : (s.putImpdef n v).sent = s.sent := rfl
@[simp] theorem State.putImpdef_flight (n : Nat) (v : Word) : (s.putImpdef n v).flight = s.flight := rfl
@[simp] theorem State.putImpdef_strays (n : Nat) (v : Word) : (s.putImpdef n v).strays = s.strays := rfl
@[simp] theorem State.putImpdef_memS (n : Nat) (v : Word) : (s.putImpdef n v).memS = s.memS := rfl
@[simp] theorem State.putImpdef_memNS (n : Nat) (v : Word) : (s.putImpdef n v).memNS = s.memNS := rfl
@[simp] theorem State.putImpdef_x (n : Nat) (v : Word) : (s.putImpdef n v).x = s.x := rfl
@[simp] theorem State.putImpdef_typer (n : Nat) (v : Word) : (s.putImpdef n v).typer = s.typer := rfl
@[simp] theorem State.putImpdef_filtr (n : Nat) (v : Word) : (s.putImpdef n v).filtr = s.filtr := rfl
@[simp] theorem State.putImpdef_svr (n : Nat) (v : Word) : (s.putImpdef n v).svr = s.svr := rfl
@[simp] theorem State.putImpdef_impdef (n : Nat) (v : Word) : (s.putImpdef n v).impdef = Sparse.set 0 s.impdef n v := rfl
@[simp] theorem State.putImpdef_lowPend (n : Nat) (v : Word) : (s.putImpdef n v).lowPend = s.lowPend := rfl
@[simp] theorem State.putImpdef_cnten (n : Nat) (v : Word) : (s.putImpdef n v).cnten = s.cnten := rfl
@[simp] theorem State.putImpdef_inten (n : Nat) (v : Word) : (s.putImpdef n v).inten = s.inten := rfl
@[simp] theorem State.putImpdef_ovs (n : Nat) (v : Word) : (s.putImpdef n v).ovs = s.ovs := rfl
@[simp] theorem State.putImpdef_pmcr (n : Nat) (v : Word) : (s.putImpdef n v).pmcr = s.pmcr := rfl
@[simp] theorem State.putImpdef_st (n : Nat) (v : Word) : (s.putImpdef n v).st = s.st := rfl
@[simp] theorem State.putImpdef_pmssrr (n : Nat) (v : Word) : (s.putImpdef n v).pmssrr = s.pmssrr := rfl
@[simp] theorem State.putImpdef_irqcr0 (n : Nat) (v : Word) : (s.putImpdef n v).irqcr0 = s.irqcr0 := rfl
@[simp] theorem State.putImpdef_irqcr1 (n : Nat) (v : Word) : (s.putImpdef n v).irqcr1 = s.irqcr1 := rfl
@[simp] theorem State.putImpdef_irqcr2 (n : Nat) (v : Word) : (s.putImpdef n v).irqcr2 = s.irqcr2 := rfl
@[simp] theorem State.putImpdef_irqErr (n : Nat) (v : Word) : (s.putImpdef n v).irqErr = s.irqErr := rfl
@[simp] theorem State.putImpdef_pend (n : Nat) (v : Word) : (s.putImpdef n v).pend = s.pend := rfl
@[simp] theorem State.putImpdef_presc (n : Nat) (v : Word) : (s.putImpdef n v).presc = s.presc := rfl
@[simp] theorem State.putImpdef_msiBusy (n : Nat) (v : Word) : (s.putImpdef n v).msiBusy = s.msiBusy := rfl
@[simp] theorem State.putImpdef_irqPrev (n : Nat) (v : Word) : (s.putImpdef n v).irqPrev = s.irqPrev := rfl
@[simp] theorem State.putImpdef_xAt (n : Nat) (v : Word) (k : Nat) : (s.putImpdef n v).xAt k = s.xAt k := rfl
@[simp] theorem State.putImpdef_typerAt (n : Nat) (v : Word) (k : Nat) : (s.putImpdef n v).typerAt k = s.typerAt k := rfl
@[simp] theorem State.putImpdef_filtrAt (n : Nat) (v : Word) (k : Nat) : (s.putImpdef n v).filtrAt k = s.filtrAt k := rfl
@[simp] theorem State.putImpdef_svrAt (n : Nat) (v : Word) (k : Nat) : (s.putImpdef n v).svrAt k = s.svrAt k := rfl
@[simp] theorem State.putImpdef_impdefAt (n : Nat) (v : Word) (k : Nat) :
    (s.putImpdef n v).impdefAt k = if n = k then v else s.impdefAt k := Sparse.get_set
@[simp] theorem State.putImpdef_lowAt (n : Nat) (v : Word) (k : Nat) : (s.putImpdef n v).lowAt k = s.lowAt k := rfl

/-! `putLow` -/

@[simp] theorem State.putLow_cfg (n a : Nat) : (s.putLow n a).cfg = s.cfg := rfl
@[simp] theorem State.putLow_env (n a : Nat) : (s.putLow n a).env = s.env := rfl
@[simp] theorem State.putLow_inputs (n a : Nat) : (s.putLow n a).inputs = s.inputs := rfl
@[simp] theorem State.putLow_splits (n a : Nat) : (s.putLow n a).splits = s.splits := rfl
@[simp] theorem State.putLow_resp (n a : Nat) : (s.putLow n a).resp = s.resp := rfl
@[simp] theorem State.putLow_draws (n a : Nat) : (s.putLow n a).draws = s.draws := rfl
@[simp] theorem State.putLow_sent (n a : Nat) : (s.putLow n a).sent = s.sent := rfl
@[simp] theorem State.putLow_flight (n a : Nat) : (s.putLow n a).flight = s.flight := rfl
@[simp] theorem State.putLow_strays (n a : Nat) : (s.putLow n a).strays = s.strays := rfl
@[simp] theorem State.putLow_memS (n a : Nat) : (s.putLow n a).memS = s.memS := rfl
@[simp] theorem State.putLow_memNS (n a : Nat) : (s.putLow n a).memNS = s.memNS := rfl
@[simp] theorem State.putLow_x (n a : Nat) : (s.putLow n a).x = s.x := rfl
@[simp] theorem State.putLow_typer (n a : Nat) : (s.putLow n a).typer = s.typer := rfl
@[simp] theorem State.putLow_filtr (n a : Nat) : (s.putLow n a).filtr = s.filtr := rfl
@[simp] theorem State.putLow_svr (n a : Nat) : (s.putLow n a).svr = s.svr := rfl
@[simp] theorem State.putLow_impdef (n a : Nat) : (s.putLow n a).impdef = s.impdef := rfl
@[simp] theorem State.putLow_lowPend (n a : Nat) : (s.putLow n a).lowPend = Sparse.set 0 s.lowPend n a := rfl
@[simp] theorem State.putLow_cnten (n a : Nat) : (s.putLow n a).cnten = s.cnten := rfl
@[simp] theorem State.putLow_inten (n a : Nat) : (s.putLow n a).inten = s.inten := rfl
@[simp] theorem State.putLow_ovs (n a : Nat) : (s.putLow n a).ovs = s.ovs := rfl
@[simp] theorem State.putLow_pmcr (n a : Nat) : (s.putLow n a).pmcr = s.pmcr := rfl
@[simp] theorem State.putLow_st (n a : Nat) : (s.putLow n a).st = s.st := rfl
@[simp] theorem State.putLow_pmssrr (n a : Nat) : (s.putLow n a).pmssrr = s.pmssrr := rfl
@[simp] theorem State.putLow_irqcr0 (n a : Nat) : (s.putLow n a).irqcr0 = s.irqcr0 := rfl
@[simp] theorem State.putLow_irqcr1 (n a : Nat) : (s.putLow n a).irqcr1 = s.irqcr1 := rfl
@[simp] theorem State.putLow_irqcr2 (n a : Nat) : (s.putLow n a).irqcr2 = s.irqcr2 := rfl
@[simp] theorem State.putLow_irqErr (n a : Nat) : (s.putLow n a).irqErr = s.irqErr := rfl
@[simp] theorem State.putLow_pend (n a : Nat) : (s.putLow n a).pend = s.pend := rfl
@[simp] theorem State.putLow_presc (n a : Nat) : (s.putLow n a).presc = s.presc := rfl
@[simp] theorem State.putLow_msiBusy (n a : Nat) : (s.putLow n a).msiBusy = s.msiBusy := rfl
@[simp] theorem State.putLow_irqPrev (n a : Nat) : (s.putLow n a).irqPrev = s.irqPrev := rfl
@[simp] theorem State.putLow_xAt (n a : Nat) (k : Nat) : (s.putLow n a).xAt k = s.xAt k := rfl
@[simp] theorem State.putLow_typerAt (n a : Nat) (k : Nat) : (s.putLow n a).typerAt k = s.typerAt k := rfl
@[simp] theorem State.putLow_filtrAt (n a : Nat) (k : Nat) : (s.putLow n a).filtrAt k = s.filtrAt k := rfl
@[simp] theorem State.putLow_svrAt (n a : Nat) (k : Nat) : (s.putLow n a).svrAt k = s.svrAt k := rfl
@[simp] theorem State.putLow_impdefAt (n a : Nat) (k : Nat) : (s.putLow n a).impdefAt k = s.impdefAt k := rfl
@[simp] theorem State.putLow_lowAt (n a : Nat) (k : Nat) :
    (s.putLow n a).lowAt k = if n = k then a else s.lowAt k := Sparse.get_set

/-! `raiseOvs` -/

@[simp] theorem State.raiseOvs_cfg (n : Nat) : (s.raiseOvs n).cfg = s.cfg := rfl
@[simp] theorem State.raiseOvs_env (n : Nat) : (s.raiseOvs n).env = s.env := rfl
@[simp] theorem State.raiseOvs_inputs (n : Nat) : (s.raiseOvs n).inputs = s.inputs := rfl
@[simp] theorem State.raiseOvs_splits (n : Nat) : (s.raiseOvs n).splits = s.splits := rfl
@[simp] theorem State.raiseOvs_resp (n : Nat) : (s.raiseOvs n).resp = s.resp := rfl
@[simp] theorem State.raiseOvs_draws (n : Nat) : (s.raiseOvs n).draws = s.draws := rfl
@[simp] theorem State.raiseOvs_sent (n : Nat) : (s.raiseOvs n).sent = s.sent := rfl
@[simp] theorem State.raiseOvs_flight (n : Nat) : (s.raiseOvs n).flight = s.flight := rfl
@[simp] theorem State.raiseOvs_strays (n : Nat) : (s.raiseOvs n).strays = s.strays := rfl
@[simp] theorem State.raiseOvs_memS (n : Nat) : (s.raiseOvs n).memS = s.memS := rfl
@[simp] theorem State.raiseOvs_memNS (n : Nat) : (s.raiseOvs n).memNS = s.memNS := rfl
@[simp] theorem State.raiseOvs_x (n : Nat) : (s.raiseOvs n).x = s.x := rfl
@[simp] theorem State.raiseOvs_typer (n : Nat) : (s.raiseOvs n).typer = s.typer := rfl
@[simp] theorem State.raiseOvs_filtr (n : Nat) : (s.raiseOvs n).filtr = s.filtr := rfl
@[simp] theorem State.raiseOvs_svr (n : Nat) : (s.raiseOvs n).svr = s.svr := rfl
@[simp] theorem State.raiseOvs_impdef (n : Nat) : (s.raiseOvs n).impdef = s.impdef := rfl
@[simp] theorem State.raiseOvs_lowPend (n : Nat) : (s.raiseOvs n).lowPend = s.lowPend := rfl
@[simp] theorem State.raiseOvs_cnten (n : Nat) : (s.raiseOvs n).cnten = s.cnten := rfl
@[simp] theorem State.raiseOvs_inten (n : Nat) : (s.raiseOvs n).inten = s.inten := rfl
@[simp] theorem State.raiseOvs_ovs (n : Nat) : (s.raiseOvs n).ovs = s.ovs ||| vecBit n := rfl
@[simp] theorem State.raiseOvs_pmcr (n : Nat) : (s.raiseOvs n).pmcr = s.pmcr := rfl
@[simp] theorem State.raiseOvs_st (n : Nat) : (s.raiseOvs n).st = s.st := rfl
@[simp] theorem State.raiseOvs_pmssrr (n : Nat) : (s.raiseOvs n).pmssrr = s.pmssrr := rfl
@[simp] theorem State.raiseOvs_irqcr0 (n : Nat) : (s.raiseOvs n).irqcr0 = s.irqcr0 := rfl
@[simp] theorem State.raiseOvs_irqcr1 (n : Nat) : (s.raiseOvs n).irqcr1 = s.irqcr1 := rfl
@[simp] theorem State.raiseOvs_irqcr2 (n : Nat) : (s.raiseOvs n).irqcr2 = s.irqcr2 := rfl
@[simp] theorem State.raiseOvs_irqErr (n : Nat) : (s.raiseOvs n).irqErr = s.irqErr := rfl
@[simp] theorem State.raiseOvs_pend (n : Nat) : (s.raiseOvs n).pend = s.pend := rfl
@[simp] theorem State.raiseOvs_presc (n : Nat) : (s.raiseOvs n).presc = s.presc := rfl
@[simp] theorem State.raiseOvs_msiBusy (n : Nat) : (s.raiseOvs n).msiBusy = s.msiBusy := rfl
@[simp] theorem State.raiseOvs_irqPrev (n : Nat) : (s.raiseOvs n).irqPrev = s.irqPrev := rfl
@[simp] theorem State.raiseOvs_xAt (n : Nat) (k : Nat) : (s.raiseOvs n).xAt k = s.xAt k := rfl
@[simp] theorem State.raiseOvs_typerAt (n : Nat) (k : Nat) : (s.raiseOvs n).typerAt k = s.typerAt k := rfl
@[simp] theorem State.raiseOvs_filtrAt (n : Nat) (k : Nat) : (s.raiseOvs n).filtrAt k = s.filtrAt k := rfl
@[simp] theorem State.raiseOvs_svrAt (n : Nat) (k : Nat) : (s.raiseOvs n).svrAt k = s.svrAt k := rfl
@[simp] theorem State.raiseOvs_impdefAt (n : Nat) (k : Nat) : (s.raiseOvs n).impdefAt k = s.impdefAt k := rfl
@[simp] theorem State.raiseOvs_lowAt (n : Nat) (k : Nat) : (s.raiseOvs n).lowAt k = s.lowAt k := rfl

/-! `dropOvs` -/

@[simp] theorem State.dropOvs_cfg (n : Nat) : (s.dropOvs n).cfg = s.cfg := rfl
@[simp] theorem State.dropOvs_env (n : Nat) : (s.dropOvs n).env = s.env := rfl
@[simp] theorem State.dropOvs_inputs (n : Nat) : (s.dropOvs n).inputs = s.inputs := rfl
@[simp] theorem State.dropOvs_splits (n : Nat) : (s.dropOvs n).splits = s.splits := rfl
@[simp] theorem State.dropOvs_resp (n : Nat) : (s.dropOvs n).resp = s.resp := rfl
@[simp] theorem State.dropOvs_draws (n : Nat) : (s.dropOvs n).draws = s.draws := rfl
@[simp] theorem State.dropOvs_sent (n : Nat) : (s.dropOvs n).sent = s.sent := rfl
@[simp] theorem State.dropOvs_flight (n : Nat) : (s.dropOvs n).flight = s.flight := rfl
@[simp] theorem State.dropOvs_strays (n : Nat) : (s.dropOvs n).strays = s.strays := rfl
@[simp] theorem State.dropOvs_memS (n : Nat) : (s.dropOvs n).memS = s.memS := rfl
@[simp] theorem State.dropOvs_memNS (n : Nat) : (s.dropOvs n).memNS = s.memNS := rfl
@[simp] theorem State.dropOvs_x (n : Nat) : (s.dropOvs n).x = s.x := rfl
@[simp] theorem State.dropOvs_typer (n : Nat) : (s.dropOvs n).typer = s.typer := rfl
@[simp] theorem State.dropOvs_filtr (n : Nat) : (s.dropOvs n).filtr = s.filtr := rfl
@[simp] theorem State.dropOvs_svr (n : Nat) : (s.dropOvs n).svr = s.svr := rfl
@[simp] theorem State.dropOvs_impdef (n : Nat) : (s.dropOvs n).impdef = s.impdef := rfl
@[simp] theorem State.dropOvs_lowPend (n : Nat) : (s.dropOvs n).lowPend = s.lowPend := rfl
@[simp] theorem State.dropOvs_cnten (n : Nat) : (s.dropOvs n).cnten = s.cnten := rfl
@[simp] theorem State.dropOvs_inten (n : Nat) : (s.dropOvs n).inten = s.inten := rfl
@[simp] theorem State.dropOvs_ovs (n : Nat) : (s.dropOvs n).ovs = s.ovs &&& ~~~vecBit n := rfl
@[simp] theorem State.dropOvs_pmcr (n : Nat) : (s.dropOvs n).pmcr = s.pmcr := rfl
@[simp] theorem State.dropOvs_st (n : Nat) : (s.dropOvs n).st = s.st := rfl
@[simp] theorem State.dropOvs_pmssrr (n : Nat) : (s.dropOvs n).pmssrr = s.pmssrr := rfl
@[simp] theorem State.dropOvs_irqcr0 (n : Nat) : (s.dropOvs n).irqcr0 = s.irqcr0 := rfl
@[simp] theorem State.dropOvs_irqcr1 (n : Nat) : (s.dropOvs n).irqcr1 = s.irqcr1 := rfl
@[simp] theorem State.dropOvs_irqcr2 (n : Nat) : (s.dropOvs n).irqcr2 = s.irqcr2 := rfl
@[simp] theorem State.dropOvs_irqErr (n : Nat) : (s.dropOvs n).irqErr = s.irqErr := rfl
@[simp] theorem State.dropOvs_pend (n : Nat) : (s.dropOvs n).pend = s.pend := rfl
@[simp] theorem State.dropOvs_presc (n : Nat) : (s.dropOvs n).presc = s.presc := rfl
@[simp] theorem State.dropOvs_msiBusy (n : Nat) : (s.dropOvs n).msiBusy = s.msiBusy := rfl
@[simp] theorem State.dropOvs_irqPrev (n : Nat) : (s.dropOvs n).irqPrev = s.irqPrev := rfl
@[simp] theorem State.dropOvs_xAt (n : Nat) (k : Nat) : (s.dropOvs n).xAt k = s.xAt k := rfl
@[simp] theorem State.dropOvs_typerAt (n : Nat) (k : Nat) : (s.dropOvs n).typerAt k = s.typerAt k := rfl
@[simp] theorem State.dropOvs_filtrAt (n : Nat) (k : Nat) : (s.dropOvs n).filtrAt k = s.filtrAt k := rfl
@[simp] theorem State.dropOvs_svrAt (n : Nat) (k : Nat) : (s.dropOvs n).svrAt k = s.svrAt k := rfl
@[simp] theorem State.dropOvs_impdefAt (n : Nat) (k : Nat) : (s.dropOvs n).impdefAt k = s.impdefAt k := rfl
@[simp] theorem State.dropOvs_lowAt (n : Nat) (k : Nat) : (s.dropOvs n).lowAt k = s.lowAt k := rfl

/-! `used` -/

@[simp] theorem State.used_cfg : s.used.cfg = s.cfg := rfl
@[simp] theorem State.used_env : s.used.env = s.env := rfl
@[simp] theorem State.used_inputs : s.used.inputs = s.inputs := rfl
@[simp] theorem State.used_splits : s.used.splits = s.splits := rfl
@[simp] theorem State.used_resp : s.used.resp = s.resp := rfl
@[simp] theorem State.used_draws : s.used.draws = s.draws + 1 := rfl
@[simp] theorem State.used_sent : s.used.sent = s.sent := rfl
@[simp] theorem State.used_flight : s.used.flight = s.flight := rfl
@[simp] theorem State.used_strays : s.used.strays = s.strays := rfl
@[simp] theorem State.used_memS : s.used.memS = s.memS := rfl
@[simp] theorem State.used_memNS : s.used.memNS = s.memNS := rfl
@[simp] theorem State.used_x : s.used.x = s.x := rfl
@[simp] theorem State.used_typer : s.used.typer = s.typer := rfl
@[simp] theorem State.used_filtr : s.used.filtr = s.filtr := rfl
@[simp] theorem State.used_svr : s.used.svr = s.svr := rfl
@[simp] theorem State.used_impdef : s.used.impdef = s.impdef := rfl
@[simp] theorem State.used_lowPend : s.used.lowPend = s.lowPend := rfl
@[simp] theorem State.used_cnten : s.used.cnten = s.cnten := rfl
@[simp] theorem State.used_inten : s.used.inten = s.inten := rfl
@[simp] theorem State.used_ovs : s.used.ovs = s.ovs := rfl
@[simp] theorem State.used_pmcr : s.used.pmcr = s.pmcr := rfl
@[simp] theorem State.used_st : s.used.st = s.st := rfl
@[simp] theorem State.used_pmssrr : s.used.pmssrr = s.pmssrr := rfl
@[simp] theorem State.used_irqcr0 : s.used.irqcr0 = s.irqcr0 := rfl
@[simp] theorem State.used_irqcr1 : s.used.irqcr1 = s.irqcr1 := rfl
@[simp] theorem State.used_irqcr2 : s.used.irqcr2 = s.irqcr2 := rfl
@[simp] theorem State.used_irqErr : s.used.irqErr = s.irqErr := rfl
@[simp] theorem State.used_pend : s.used.pend = s.pend := rfl
@[simp] theorem State.used_presc : s.used.presc = s.presc := rfl
@[simp] theorem State.used_msiBusy : s.used.msiBusy = s.msiBusy := rfl
@[simp] theorem State.used_irqPrev : s.used.irqPrev = s.irqPrev := rfl
@[simp] theorem State.used_xAt (k : Nat) : s.used.xAt k = s.xAt k := rfl
@[simp] theorem State.used_typerAt (k : Nat) : s.used.typerAt k = s.typerAt k := rfl
@[simp] theorem State.used_filtrAt (k : Nat) : s.used.filtrAt k = s.filtrAt k := rfl
@[simp] theorem State.used_svrAt (k : Nat) : s.used.svrAt k = s.svrAt k := rfl
@[simp] theorem State.used_impdefAt (k : Nat) : s.used.impdefAt k = s.impdefAt k := rfl
@[simp] theorem State.used_lowAt (k : Nat) : s.used.lowAt k = s.lowAt k := rfl

/-! `dropPend` -/

@[simp] theorem State.dropPend_cfg (r : MonReg) : (s.dropPend r).cfg = s.cfg := rfl
@[simp] theorem State.dropPend_env (r : MonReg) : (s.dropPend r).env = s.env := rfl
@[simp] theorem State.dropPend_inputs (r : MonReg) : (s.dropPend r).inputs = s.inputs := rfl
@[simp] theorem State.dropPend_splits (r : MonReg) : (s.dropPend r).splits = s.splits := rfl
@[simp] theorem State.dropPend_resp (r : MonReg) : (s.dropPend r).resp = s.resp := rfl
@[simp] theorem State.dropPend_draws (r : MonReg) : (s.dropPend r).draws = s.draws := rfl
@[simp] theorem State.dropPend_sent (r : MonReg) : (s.dropPend r).sent = s.sent := rfl
@[simp] theorem State.dropPend_flight (r : MonReg) : (s.dropPend r).flight = s.flight := rfl
@[simp] theorem State.dropPend_strays (r : MonReg) : (s.dropPend r).strays = s.strays := rfl
@[simp] theorem State.dropPend_memS (r : MonReg) : (s.dropPend r).memS = s.memS := rfl
@[simp] theorem State.dropPend_memNS (r : MonReg) : (s.dropPend r).memNS = s.memNS := rfl
@[simp] theorem State.dropPend_x (r : MonReg) : (s.dropPend r).x = s.x := rfl
@[simp] theorem State.dropPend_typer (r : MonReg) : (s.dropPend r).typer = s.typer := rfl
@[simp] theorem State.dropPend_filtr (r : MonReg) : (s.dropPend r).filtr = s.filtr := rfl
@[simp] theorem State.dropPend_svr (r : MonReg) : (s.dropPend r).svr = s.svr := rfl
@[simp] theorem State.dropPend_impdef (r : MonReg) : (s.dropPend r).impdef = s.impdef := rfl
@[simp] theorem State.dropPend_lowPend (r : MonReg) : (s.dropPend r).lowPend = s.lowPend := rfl
@[simp] theorem State.dropPend_cnten (r : MonReg) : (s.dropPend r).cnten = s.cnten := rfl
@[simp] theorem State.dropPend_inten (r : MonReg) : (s.dropPend r).inten = s.inten := rfl
@[simp] theorem State.dropPend_ovs (r : MonReg) : (s.dropPend r).ovs = s.ovs := rfl
@[simp] theorem State.dropPend_pmcr (r : MonReg) : (s.dropPend r).pmcr = s.pmcr := rfl
@[simp] theorem State.dropPend_st (r : MonReg) : (s.dropPend r).st = s.st := rfl
@[simp] theorem State.dropPend_pmssrr (r : MonReg) : (s.dropPend r).pmssrr = s.pmssrr := rfl
@[simp] theorem State.dropPend_irqcr0 (r : MonReg) : (s.dropPend r).irqcr0 = s.irqcr0 := rfl
@[simp] theorem State.dropPend_irqcr1 (r : MonReg) : (s.dropPend r).irqcr1 = s.irqcr1 := rfl
@[simp] theorem State.dropPend_irqcr2 (r : MonReg) : (s.dropPend r).irqcr2 = s.irqcr2 := rfl
@[simp] theorem State.dropPend_irqErr (r : MonReg) : (s.dropPend r).irqErr = s.irqErr := rfl
@[simp] theorem State.dropPend_pend (r : MonReg) : (s.dropPend r).pend = s.pend.filter (fun p => decide (p.reg ≠ r)) := rfl
@[simp] theorem State.dropPend_presc (r : MonReg) : (s.dropPend r).presc = s.presc := rfl
@[simp] theorem State.dropPend_msiBusy (r : MonReg) : (s.dropPend r).msiBusy = s.msiBusy := rfl
@[simp] theorem State.dropPend_irqPrev (r : MonReg) : (s.dropPend r).irqPrev = s.irqPrev := rfl
@[simp] theorem State.dropPend_xAt (r : MonReg) (k : Nat) : (s.dropPend r).xAt k = s.xAt k := rfl
@[simp] theorem State.dropPend_typerAt (r : MonReg) (k : Nat) : (s.dropPend r).typerAt k = s.typerAt k := rfl
@[simp] theorem State.dropPend_filtrAt (r : MonReg) (k : Nat) : (s.dropPend r).filtrAt k = s.filtrAt k := rfl
@[simp] theorem State.dropPend_svrAt (r : MonReg) (k : Nat) : (s.dropPend r).svrAt k = s.svrAt k := rfl
@[simp] theorem State.dropPend_impdefAt (r : MonReg) (k : Nat) : (s.dropPend r).impdefAt k = s.impdefAt k := rfl
@[simp] theorem State.dropPend_lowAt (r : MonReg) (k : Nat) : (s.dropPend r).lowAt k = s.lowAt k := rfl

/-! `answer` -/

@[simp] theorem State.answer_cfg (r : Resp) : (s.answer r).cfg = s.cfg := rfl
@[simp] theorem State.answer_env (r : Resp) : (s.answer r).env = s.env := rfl
@[simp] theorem State.answer_inputs (r : Resp) : (s.answer r).inputs = s.inputs := rfl
@[simp] theorem State.answer_splits (r : Resp) : (s.answer r).splits = s.splits := rfl
@[simp] theorem State.answer_resp (r : Resp) : (s.answer r).resp = r := rfl
@[simp] theorem State.answer_draws (r : Resp) : (s.answer r).draws = s.draws := rfl
@[simp] theorem State.answer_sent (r : Resp) : (s.answer r).sent = s.sent := rfl
@[simp] theorem State.answer_flight (r : Resp) : (s.answer r).flight = s.flight := rfl
@[simp] theorem State.answer_strays (r : Resp) : (s.answer r).strays = s.strays := rfl
@[simp] theorem State.answer_memS (r : Resp) : (s.answer r).memS = s.memS := rfl
@[simp] theorem State.answer_memNS (r : Resp) : (s.answer r).memNS = s.memNS := rfl
@[simp] theorem State.answer_x (r : Resp) : (s.answer r).x = s.x := rfl
@[simp] theorem State.answer_typer (r : Resp) : (s.answer r).typer = s.typer := rfl
@[simp] theorem State.answer_filtr (r : Resp) : (s.answer r).filtr = s.filtr := rfl
@[simp] theorem State.answer_svr (r : Resp) : (s.answer r).svr = s.svr := rfl
@[simp] theorem State.answer_impdef (r : Resp) : (s.answer r).impdef = s.impdef := rfl
@[simp] theorem State.answer_lowPend (r : Resp) : (s.answer r).lowPend = s.lowPend := rfl
@[simp] theorem State.answer_cnten (r : Resp) : (s.answer r).cnten = s.cnten := rfl
@[simp] theorem State.answer_inten (r : Resp) : (s.answer r).inten = s.inten := rfl
@[simp] theorem State.answer_ovs (r : Resp) : (s.answer r).ovs = s.ovs := rfl
@[simp] theorem State.answer_pmcr (r : Resp) : (s.answer r).pmcr = s.pmcr := rfl
@[simp] theorem State.answer_st (r : Resp) : (s.answer r).st = s.st := rfl
@[simp] theorem State.answer_pmssrr (r : Resp) : (s.answer r).pmssrr = s.pmssrr := rfl
@[simp] theorem State.answer_irqcr0 (r : Resp) : (s.answer r).irqcr0 = s.irqcr0 := rfl
@[simp] theorem State.answer_irqcr1 (r : Resp) : (s.answer r).irqcr1 = s.irqcr1 := rfl
@[simp] theorem State.answer_irqcr2 (r : Resp) : (s.answer r).irqcr2 = s.irqcr2 := rfl
@[simp] theorem State.answer_irqErr (r : Resp) : (s.answer r).irqErr = s.irqErr := rfl
@[simp] theorem State.answer_pend (r : Resp) : (s.answer r).pend = s.pend := rfl
@[simp] theorem State.answer_presc (r : Resp) : (s.answer r).presc = s.presc := rfl
@[simp] theorem State.answer_msiBusy (r : Resp) : (s.answer r).msiBusy = s.msiBusy := rfl
@[simp] theorem State.answer_irqPrev (r : Resp) : (s.answer r).irqPrev = s.irqPrev := rfl
@[simp] theorem State.answer_xAt (r : Resp) (k : Nat) : (s.answer r).xAt k = s.xAt k := rfl
@[simp] theorem State.answer_typerAt (r : Resp) (k : Nat) : (s.answer r).typerAt k = s.typerAt k := rfl
@[simp] theorem State.answer_filtrAt (r : Resp) (k : Nat) : (s.answer r).filtrAt k = s.filtrAt k := rfl
@[simp] theorem State.answer_svrAt (r : Resp) (k : Nat) : (s.answer r).svrAt k = s.svrAt k := rfl
@[simp] theorem State.answer_impdefAt (r : Resp) (k : Nat) : (s.answer r).impdefAt k = s.impdefAt k := rfl
@[simp] theorem State.answer_lowAt (r : Resp) (k : Nat) : (s.answer r).lowAt k = s.lowAt k := rfl

/-! `settle` -/

@[simp] theorem State.settle_cfg : s.settle.cfg = s.cfg := rfl
@[simp] theorem State.settle_env : s.settle.env = s.env := rfl
@[simp] theorem State.settle_inputs : s.settle.inputs = s.inputs := rfl
@[simp] theorem State.settle_splits : s.settle.splits = s.splits := rfl
@[simp] theorem State.settle_resp : s.settle.resp = s.resp := rfl
@[simp] theorem State.settle_draws : s.settle.draws = s.draws := rfl
@[simp] theorem State.settle_sent : s.settle.sent = s.sent := rfl
@[simp] theorem State.settle_flight : s.settle.flight = s.flight := rfl
@[simp] theorem State.settle_strays : s.settle.strays = s.strays := rfl
@[simp] theorem State.settle_memS : s.settle.memS = s.memS := rfl
@[simp] theorem State.settle_memNS : s.settle.memNS = s.memNS := rfl
@[simp] theorem State.settle_x : s.settle.x = s.x := rfl
@[simp] theorem State.settle_typer : s.settle.typer = s.typer := rfl
@[simp] theorem State.settle_filtr : s.settle.filtr = s.filtr := rfl
@[simp] theorem State.settle_svr : s.settle.svr = s.svr := rfl
@[simp] theorem State.settle_impdef : s.settle.impdef = s.impdef := rfl
@[simp] theorem State.settle_lowPend : s.settle.lowPend = s.lowPend := rfl
@[simp] theorem State.settle_cnten : s.settle.cnten = s.cnten := rfl
@[simp] theorem State.settle_inten : s.settle.inten = s.inten := rfl
@[simp] theorem State.settle_ovs : s.settle.ovs = s.ovs := rfl
@[simp] theorem State.settle_pmcr : s.settle.pmcr = s.pmcr := rfl
@[simp] theorem State.settle_st : s.settle.st = s.opState := rfl
@[simp] theorem State.settle_pmssrr : s.settle.pmssrr = s.pmssrr := rfl
@[simp] theorem State.settle_irqcr0 : s.settle.irqcr0 = s.irqcr0 := rfl
@[simp] theorem State.settle_irqcr1 : s.settle.irqcr1 = s.irqcr1 := rfl
@[simp] theorem State.settle_irqcr2 : s.settle.irqcr2 = s.irqcr2 := rfl
@[simp] theorem State.settle_irqErr : s.settle.irqErr = s.irqErr := rfl
@[simp] theorem State.settle_pend : s.settle.pend = s.pend := rfl
@[simp] theorem State.settle_presc : s.settle.presc = s.presc := rfl
@[simp] theorem State.settle_msiBusy : s.settle.msiBusy = s.msiBusy := rfl
@[simp] theorem State.settle_irqPrev : s.settle.irqPrev = s.irqPrev := rfl
@[simp] theorem State.settle_xAt (k : Nat) : s.settle.xAt k = s.xAt k := rfl
@[simp] theorem State.settle_typerAt (k : Nat) : s.settle.typerAt k = s.typerAt k := rfl
@[simp] theorem State.settle_filtrAt (k : Nat) : s.settle.filtrAt k = s.filtrAt k := rfl
@[simp] theorem State.settle_svrAt (k : Nat) : s.settle.svrAt k = s.svrAt k := rfl
@[simp] theorem State.settle_impdefAt (k : Nat) : s.settle.impdefAt k = s.impdefAt k := rfl
@[simp] theorem State.settle_lowAt (k : Nat) : s.settle.lowAt k = s.lowAt k := rfl

end Sys2Proof.Machine
end

