-- ==== Sys2Proof/Laws/Ops.lean ====
section
/-! SUPPORT. For each shared operation, one lemma that says everything it can do: which components it writes
and with what. -/

set_option Elab.async false

namespace Sys2Proof.Machine

variable (s : State)

/-! ### Counting -/

/-- `addTo` writes the counter and its flag, nothing else (R145, R146). -/
theorem State.addTo_eq (n a : Nat) : s.addTo n a =
    { s with
      x := Sparse.set 0 s.x n (s.cfg.wrap n ((s.xAt n).toNat + a))
      ovs := if 2 ^ s.cfg.width n ≤ (s.xAt n).toNat + a then s.ovs ||| vecBit n else s.ovs } := by
  unfold State.addTo
  split <;> rfl

/-- `chainLo` applies the held-back increment, sets the flag and clears the record of it (R204). -/
theorem State.chainLo_eq (n : Nat) : s.chainLo n =
    { s with
      x := if s.lowAt n = 0 then s.x
        else Sparse.set 0 s.x n (s.cfg.wrap n ((s.xAt n).toNat + s.lowAt n))
      ovs := if s.lowAt n = 0 then s.ovs else s.ovs ||| vecBit n
      lowPend := if s.lowAt n = 0 then s.lowPend else Sparse.set 0 s.lowPend n 0 } := by
  unfold State.chainLo
  split <;> rfl

/-- `chainFrom` adds one to the odd counter above if that counter counts the CHAIN occurrence (R202). -/
theorem State.chainFrom_cases (n : Nat) (e : Occ) :
    (s.chained n = true ∧ s.chainFrom n e = s.addTo (n + 1) 1) ∨ s.chainFrom n e = s := by
  unfold State.chainFrom
  split
  · rename_i h
    simp only [Bool.and_eq_true] at h
    exact .inl ⟨h.1.2, rfl⟩
  · exact .inr rfl

/-- `chainFromFrozen` is `chainFrom` or drops the occurrence, and may use one free value (R184). -/
theorem State.chainFromFrozen_cases (before : OpSt) (n : Nat) (e : Occ) :
    s.chainFromFrozen before n e = s.chainFrom n e ∨ s.chainFromFrozen before n e = s
      ∨ s.chainFromFrozen before n e = s.used.chainFrom n e ∨ s.chainFromFrozen before n e = s.used := by
  unfold State.chainFromFrozen
  split
  · split
    · exact .inl rfl
    · exact .inr (.inl rfl)
    · split
      · exact .inr (.inr (.inl rfl))
      · exact .inr (.inr (.inr rfl))
  · exact .inl rfl

/-- `countBy` adds, or adds and chains, or holds the low update back after chaining (R145, R202, R204). -/
theorem State.countBy_cases (n a : Nat) (e : Occ) :
    s.countBy n a e = s.addTo n a
      ∨ s.countBy n a e = (s.addTo n a).chainFromFrozen s.opState n e
      ∨ (s.cfg.chain = true ∧ s.chained n = true ∧ s.cfg.chainAtomic = false
        ∧ s.countBy n a e = (s.chainFrom n e).putLow n a) := by
  unfold State.countBy
  split
  · split
    · rename_i h
      simp only [Bool.and_eq_true, Bool.not_eq_true'] at h
      exact .inr (.inr ⟨h.1.1, h.1.2, h.2, rfl⟩)
    · exact .inr (.inl rfl)
  · exact .inl rfl

/-- `redrawPresc` replaces the prescaler phase by a free value where there is a prescaler (R193). -/
theorem State.redrawPresc_eq : s.redrawPresc =
    { s with
      presc := if s.cfg.cc && s.cfg.ccd then s.drawn.setWidth 6 else s.presc
      draws := if s.cfg.cc && s.cfg.ccd then s.draws + 1 else s.draws } := by
  unfold State.redrawPresc
  split <;> rfl

/-! ### Pending writes -/

/-- `commit` of a counter writes it, after the held-back update; of the cycle counter, it leaves the prescaler
phase open (R86, R193, R204). -/
theorem State.commit_cntr_eq (n : Nat) (v : DWord) : s.commit (.cntr n) v =
    { s with
      x := Sparse.set 0 (s.chainLo n).x n v
      ovs := (s.chainLo n).ovs
      lowPend := (s.chainLo n).lowPend
      presc := if s.cfg.isCycle n && (s.cfg.cc && s.cfg.ccd) then s.drawn.setWidth 6 else s.presc
      draws := if s.cfg.isCycle n && (s.cfg.cc && s.cfg.ccd) then s.draws + 1 else s.draws } := by
  simp only [State.commit, State.chainLo_eq, State.redrawPresc_eq]
  cases s.cfg.isCycle n <;> rfl

/-- A write is stored at once exactly in STOP, settled there or under `Cfg.NA` (R236, R242). -/
theorem State.storesNow_eq_true {s : State} :
    s.storesNow = true ↔ s.opState = .stop ∧ (s.cfg.na = true ∨ s.st = .stop) := by
  simp [State.storesNow]

/-- A write neither ignored nor stored at once is one that `Cfg.NA` does not hold for (R242). -/
theorem State.na_of_not_storesNow {s : State} (hn : ¬(s.cfg.na && decide (s.opState ≠ .stop)) = true)
    (h : ¬s.storesNow = true) : s.cfg.na = false := by
  rw [State.storesNow_eq_true] at h
  cases hna : s.cfg.na
  · rfl
  · simp only [hna, Bool.true_and, decide_eq_true_eq, ne_eq, Decidable.not_not] at hn
    exact absurd ⟨hn, .inl hna⟩ h

/-- What a write of a monitor register does (R236): it is ignored, or stored, or it becomes pending. -/
theorem State.writeMonitorReg_cases (r : MonReg) (v : DWord) :
    s.writeMonitorReg r v = s
      ∨ (r.writable s.cfg = true ∧ s.storesNow = true
        ∧ s.writeMonitorReg r v = (s.dropPend r).commit r v)
      ∨ (r.writable s.cfg = true ∧ s.cfg.na = false ∧ s.storesNow = false
        ∧ s.writeMonitorReg r v = { s.reopenPresc r with pend := s.pend ++ [⟨r, v⟩] }) := by
  unfold State.writeMonitorReg
  split
  · exact .inl rfl
  · rename_i hw
    simp only [Bool.not_eq_true', Bool.not_eq_false] at hw
    split
    · exact .inl rfl
    · split
      · rename_i h
        exact .inr (.inl ⟨hw, h, rfl⟩)
      · rename_i hn h
        exact .inr (.inr ⟨hw, State.na_of_not_storesNow hn h, Bool.eq_false_iff.2 h, rfl⟩)

/-- The newest pending value is that of an entry of the list (R87). -/
theorem newest_mem {r : MonReg} {l : List PendEntry} {v : DWord} (h : newest r l = some v) :
    ⟨r, v⟩ ∈ l := by
  induction l with
  | nil => simp [newest] at h
  | cons p rest ih =>
    simp only [newest] at h
    split at h
    · rename_i w hw
      exact List.mem_cons_of_mem _ (ih (by simpa [hw] using h))
    · split at h
      · rename_i hp
        obtain ⟨pr, pv⟩ := p
        simp only at hp
        simp only [Option.some.injEq] at h
        subst hp; subst h
        exact List.mem_cons_self
      · cases h

/-- The newest pending value of a list that ends with an entry of the register is that entry's (R87). -/
theorem newest_append (r : MonReg) (l : List PendEntry) (v : DWord) :
    newest r (l ++ [⟨r, v⟩]) = some v := by
  induction l with
  | nil => simp [newest]
  | cons p rest ih => simp [newest, ih]

/-- An entry of another register does not change the newest pending value (R87). -/
theorem newest_append_ne {r q : MonReg} (h : q ≠ r) (l : List PendEntry) (v : DWord) :
    newest r (l ++ [⟨q, v⟩]) = newest r l := by
  induction l with
  | nil => simp [newest, h]
  | cons p rest ih => simp [newest, ih]

/-- A register none of whose writes is pending has no newest pending value. -/
theorem newest_filter (r : MonReg) (l : List PendEntry) :
    newest r (l.filter (fun p => decide (p.reg ≠ r))) = none := by
  induction l with
  | nil => rfl
  | cons p rest ih =>
    simp only [List.filter]
    split
    · rename_i hp
      simp only [newest, ih, if_neg (of_decide_eq_true hp)]
    · exact ih

/-- Dropping the writes of one register leaves another's newest value. -/
theorem newest_filter_ne {r q : MonReg} (h : q ≠ r) (l : List PendEntry) :
    newest q (l.filter (fun p => decide (p.reg ≠ r))) = newest q l := by
  induction l with
  | nil => rfl
  | cons p rest ih =>
    by_cases hp : p.reg = r
    · have hq : ¬ p.reg = q := fun e => h (e.symm.trans hp)
      simp only [List.filter, hp, ne_eq, not_true_eq_false, decide_false, newest]
      rw [ih]
      cases newest q rest <;> simp [Ne.symm h]
    · simp only [List.filter, hp, ne_eq, not_false_eq_true, decide_true, newest]
      rw [ih]

/-- Taking the oldest entry: it was pending, and what is left was pending too (R86). -/
theorem takeOldest_mem {r : MonReg} {l rest : List PendEntry} {v : DWord}
    (h : takeOldest r l = some (v, rest)) : ⟨r, v⟩ ∈ l ∧ ∀ p ∈ rest, p ∈ l := by
  induction l generalizing rest with
  | nil => simp [takeOldest] at h
  | cons p l ih =>
    simp only [takeOldest] at h
    split at h
    · rename_i hp
      obtain ⟨pr, pv⟩ := p
      simp only at hp
      simp only [Option.some.injEq, Prod.mk.injEq] at h
      obtain ⟨h1, h2⟩ := h
      subst hp; subst h1; subst h2
      exact ⟨List.mem_cons_self, fun q hq => List.mem_cons_of_mem _ hq⟩
    · split at h
      · rename_i v' l' hl
        simp only [Option.some.injEq, Prod.mk.injEq] at h
        obtain ⟨h1, h2⟩ := h
        subst h1; subst h2
        obtain ⟨ha, hb⟩ := ih hl
        refine ⟨List.mem_cons_of_mem _ ha, fun q hq => ?_⟩
        rcases List.mem_cons.1 hq with rfl | hq
        · exact List.mem_cons_self
        · exact List.mem_cons_of_mem _ (hb q hq)
      · cases h

/-- Every register with a pending write has an oldest one (R86). -/
theorem takeOldest_isSome {r : MonReg} {l : List PendEntry} {v : DWord} (h : ⟨r, v⟩ ∈ l) :
    (takeOldest r l).isSome = true := by
  induction l with
  | nil => cases h
  | cons p l ih =>
    simp only [takeOldest]
    split
    · rfl
    · rename_i hp
      rcases List.mem_cons.1 h with rfl | h
      · exact absurd rfl hp
      · have := ih h
        split
        · rfl
        · rename_i hn; rw [hn] at this; cases this

/-! ### Resets of monitors -/

/-- `clearMonitor` writes the counter, the flag and the record of a held-back update, and drops the
counter's pending writes (R296). -/
theorem State.clearMonitor_eq (n : Nat) : s.clearMonitor n =
    { s with
      x := Sparse.set 0 (s.chainLo n).x n 0
      ovs := if s.lowAt n = 0 then s.ovs else s.ovs ||| vecBit n
      lowPend := if s.lowAt n = 0 then s.lowPend else Sparse.set 0 s.lowPend n 0
      pend := s.pend.filter (fun p => decide (p.reg ≠ .cntr n)) } := by
  unfold State.clearMonitor
  rw [State.chainLo_eq]
  rfl

/-- `clearMonitor` over a list of monitors writes only what one does. -/
theorem State.foldl_clearMonitor_eq (l : List Nat) (s : State) : l.foldl State.clearMonitor s =
    { s with
      x := (l.foldl State.clearMonitor s).x
      ovs := (l.foldl State.clearMonitor s).ovs
      lowPend := (l.foldl State.clearMonitor s).lowPend
      pend := (l.foldl State.clearMonitor s).pend } := by
  induction l generalizing s with
  | nil => rfl
  | cons n l ih =>
    simp only [List.foldl_cons]
    rw [ih (s.clearMonitor n), State.clearMonitor_eq]

/-- `captureClear` over a list of monitors writes the counters, the flags and the held-back updates (R212). -/
theorem State.foldl_captureClear_eq (l : List Nat) (s : State) : l.foldl State.captureClear s =
    { s with
      x := (l.foldl State.captureClear s).x
      ovs := (l.foldl State.captureClear s).ovs
      lowPend := (l.foldl State.captureClear s).lowPend } := by
  induction l generalizing s with
  | nil => rfl
  | cons n l ih =>
    simp only [List.foldl_cons]
    rw [ih (s.captureClear n)]
    unfold State.captureClear
    split
    · rw [State.chainLo_eq]; rfl
    · rfl

/-- `captureSlot` over a list of saved value registers writes those registers and may use free values. -/
theorem State.foldl_captureSlot_eq (l : List Nat) (s : State) : l.foldl State.captureSlot s =
    { s with
      svr := (l.foldl State.captureSlot s).svr
      draws := (l.foldl State.captureSlot s).draws } := by
  induction l generalizing s with
  | nil => rfl
  | cons n l ih =>
    simp only [List.foldl_cons]
    rw [ih (s.captureSlot n)]
    unfold State.captureSlot
    split <;> rfl

/-- `capture` writes the saved values and, by its reset, counters, flags and held-back updates (R211, R212). -/
theorem State.capture_frame : s.capture =
    { s with
      svr := s.capture.svr
      draws := s.capture.draws
      x := s.capture.x
      ovs := s.capture.ovs
      lowPend := s.capture.lowPend } := by
  unfold State.capture
  split
  · rfl
  · split
    · unfold State.captureReset
      split
      · rw [State.foldl_captureClear_eq, State.foldl_captureSlot_eq]
      · rw [State.foldl_captureSlot_eq]
    · rfl

/-! ### System memory -/

/-- A read after the write of a word: its bytes inside, the old bytes outside (R93). -/
theorem readByte_writeWord (mem : List Host.Cell) (a b : Nat) (v : Word) :
    readByte (writeWord mem a v) b =
      if a ≤ b ∧ b < a + 4 then v.extractLsb' (8 * (b - a)) 8 else readByte mem b := by
  simp only [readByte, writeWord, Sparse.get_set]
  by_cases h3 : a + 3 = b
  · subst h3; simp
  · by_cases h2 : a + 2 = b
    · subst h2; simp
    · by_cases h1 : a + 1 = b
      · subst h1; simp
      · by_cases h0 : a = b
        · subst h0; simp
        · have : ¬ (a ≤ b ∧ b < a + 4) := by omega
          simp [h0, h1, h2, h3, this]

/-- The write of a word, the only operation on system memory, keeps its canonical form. -/
theorem Memory.wf_writeWord {mem : List Host.Cell} (h : Memory.wf mem = true) (a : Nat) (v : Word) :
    Memory.wf (writeWord mem a v) = true :=
  Sparse.wf_set (Sparse.wf_set (Sparse.wf_set (Sparse.wf_set h)))

/-- System memory after reset is in its canonical form. -/
theorem Memory.wf_reset : Memory.wf State.reset.memS = true ∧ Memory.wf State.reset.memNS = true :=
  ⟨rfl, rfl⟩

/-- Starting the interrupt message issues its write and raises the in-progress and signalled marks (R358). -/
theorem State.msiStart_eq (h : s.msiReady = true) : s.msiStart =
    { s with
      irqPrev := true
      msiBusy := true
      sent := s.msiMsg :: s.sent
      flight := some s.msiMsg
      draws := if s.reservedAttr then s.draws + 1 else s.draws } := by
  unfold State.msiStart
  rw [if_pos h]

/-- A message write that reaches its target changes the four bytes it names in the address space it names, and
no other byte (R93). -/
theorem State.land_bytes (m : MsiMsg) (a : Nat) :
    readByte (if m.ns then (s.land m).memNS else (s.land m).memS) a
        = (if m.addr.toNat ≤ a ∧ a < m.addr.toNat + 4 then m.data.extractLsb' (8 * (a - m.addr.toNat)) 8
          else readByte (if m.ns then s.memNS else s.memS) a)
      ∧ readByte (if m.ns then (s.land m).memS else (s.land m).memNS) a
        = readByte (if m.ns then s.memS else s.memNS) a := by
  cases h : m.ns <;> simp [State.land, h, readByte_writeWord]

/-- A message write that reaches its target keeps the canonical form of both address spaces. -/
theorem State.land_wf (m : MsiMsg) (h : Memory.wf s.memS = true ∧ Memory.wf s.memNS = true) :
    Memory.wf (s.land m).memS = true ∧ Memory.wf (s.land m).memNS = true := by
  cases hm : m.ns <;> simp [State.land, hm, h, Memory.wf_writeWord]

/-- The end of a message write lets it reach its target, or not, and it is no longer under way; nothing else
changes but the free value an error uses (R359). -/
theorem State.endFlight_cases (err : Bool) :
    s.endFlight err = s.msiArrive
      ∨ err = true ∧ (s.endFlight err = s.used.msiArrive ∨ s.endFlight err = { s.used with flight := none }) := by
  unfold State.endFlight
  split
  · rename_i h
    simp only [Bool.and_eq_true] at h
    split
    · exact .inr ⟨h.2, .inl rfl⟩
    · exact .inr ⟨h.2, .inr rfl⟩
  · exact .inl rfl

/-- A message write's arrival changes memory and ends its being under way, nothing else. -/
theorem State.msiArrive_eq : s.msiArrive =
    { s with memS := s.msiArrive.memS, memNS := s.msiArrive.memNS, flight := none } := by
  unfold State.msiArrive
  split
  · rfl
  · rename_i h; rw [← h]

/-- The end of the message write in progress changes memory and the count of free values and ends its being under
way, nothing else. -/
theorem State.endFlight_eq (err : Bool) : s.endFlight err =
    { s with
      memS := (s.endFlight err).memS
      memNS := (s.endFlight err).memNS
      draws := (s.endFlight err).draws
      flight := none } := by
  rcases s.endFlight_cases err with h | ⟨-, h | h⟩ <;> rw [h] <;> (try rw [State.msiArrive_eq]) <;> rfl

/-- The completion of the message write in progress changes memory, the count of free values, what is under way
and the error flag, nothing else (R359). -/
theorem State.msiDone_eq (err : Bool) (h : s.msiBusy = true) : s.msiDone err =
    { s with
      memS := (s.endFlight err).memS
      memNS := (s.endFlight err).memNS
      draws := (s.endFlight err).draws
      flight := none
      msiBusy := false
      irqErr := s.irqErr || err } := by
  unfold State.msiDone
  rw [if_pos h, State.endFlight_eq]

/-- The end of an abandoned message write changes memory and the list of them, nothing else (R461). -/
theorem State.strayEnd_eq (k : Nat) (reaches : Bool) : s.strayEnd k reaches =
    { s with
      memS := (s.strayEnd k reaches).memS
      memNS := (s.strayEnd k reaches).memNS
      strays := (s.strayEnd k reaches).strays } := by
  unfold State.strayEnd
  split
  · cases reaches <;> rfl
  · rfl

end Sys2Proof.Machine
end

