-- ==== Sys2Proof/Laws/Exec.lean ====
section
/-! SUPPORT. What holds of every access: a relation between states that each register's write keeps holds
between the states before and after any access that gives a next state. -/

set_option Elab.async false

namespace Sys2Proof.Machine

/-- `R` relates the states before and after each write that an access of `i` can make, it is reflexive and
transitive, and answering, using a free value and remembering a second half keep it. -/
structure AccessRel (R : State → State → Prop) (i : Instr) : Prop where
  refl : ∀ s, R s s
  trans : ∀ {s t u}, R s t → R t u → R s u
  answer : ∀ s r, R s (s.answer r)
  used : ∀ s, R s s.used
  split : ∀ s w b j, R s (s.splitOff w b j)
  counter : ∀ s n v, s.cfg.impl n = true → R s (s.writeMonitorReg (.cntr n) (s.cfg.wrap n v))
  typer : ∀ s n v, s.cfg.hasTyper n = true →
    R s (s.writeMonitorReg (.typer n) ((s.cfg.typerValue n v).setWidth 64))
  filtr : ∀ s n v, s.cfg.hasFiltr n = true →
    R s (s.writeMonitorReg (.filtr n) ((s.cfg.filtrValue n v).setWidth 64))
  cntenSet : ∀ s m v, R s ((cntenSetHalf m).wr v s)
  cntenClr : ∀ s m v, R s ((cntenClrHalf m).wr v s)
  intenSet : ∀ s m v, R s ((intenSetHalf m).wr v s)
  intenClr : ∀ s m v, R s ((intenClrHalf m).wr v s)
  ovsSet : ∀ s m v, R s ((ovsSetHalf m).wr v s)
  ovsClr : ∀ s m v, R s ((ovsClrHalf m).wr v s)
  impdef : ∀ s k v, R s ((impdefHalf k).wr v s)
  pmcr : ∀ s v, R s (s.writePmcr v)
  capture : (∃ a, i = .pmsscr a) → ∀ s, R s s.capture
  ssrrLo : ∀ s v, R s (ssrrLoHalf.wr v s)
  ssrrHi : ∀ s v, R s (ssrrHiHalf.wr v s)
  ssrr : ∀ s v, R s (s.writeSsrr v)
  irqcr0Lo : ∀ s v, R s ((irqcr0LoHalf i.access.ns).wr v s)
  irqcr0Hi : ∀ s v, R s ((irqcr0HiHalf i.access.ns).wr v s)
  irqcr0 : ∀ s v, R s (s.writeIrqcr0 i.access.ns v)
  irqcr1 : ∀ s v, R s ((irqcr1Half i.access.ns).wr v s)
  irqcr2 : ∀ s v, R s ((irqcr2Half i.access.ns).wr v s)
  irqsr : ∀ s v, R s ((irqsrLoHalf i.access.ns).wr v s)

variable {R : State → State → Prop} {i : Instr} {s t : State} {a : Access}

/-- The relation holds across an access to one 32-bit location. -/
theorem access32_rel (h : AccessRel R i) {loc : Half} (k : ∀ s v, R s (loc.wr v s))
    (e : access32 loc a s = .next t) : R s t := by
  unfold access32 at e
  split at e
  · cases e; exact h.answer _ _
  · cases e; exact h.trans (k _ _) (h.answer _ _)
  · cases e
  · cases e

/-- The relation holds across an access at the lower offset of a 64-bit register or of a pair. -/
theorem access64_rel (h : AccessRel R i) {lo hi : Half} {both : DWord → State → State} {p : Bool}
    {lI hI : Access → Instr} (kl : ∀ s v, R s (lo.wr v s)) (kh : ∀ s v, R s (hi.wr v s))
    (kb : ∀ s v, R s (both v s)) (e : access64 p lo hi both lI hI a s = .next t) : R s t := by
  unfold access64 at e
  split at e
  · cases e; exact h.answer _ _
  · cases e; exact h.trans (kl _ _) (h.answer _ _)
  · split at e
    · cases e
      unfold read64
      split
      · exact h.answer _ _
      · split <;> exact h.trans (h.used _) (h.split _ _ _ _)
    · cases e
  · split at e
    · cases e
      unfold write64
      split
      · exact h.trans (kb _ _) (h.answer _ _)
      · split
        · exact h.trans (h.trans (h.used _) (kh _ _)) (h.split _ _ _ _)
        · exact h.trans (h.trans (h.used _) (kl _ _)) (h.split _ _ _ _)
    · cases e

/-- The relation holds across the 64-bit write of a pair of registers. -/
theorem pairWrite_rel (h : AccessRel R i) {lo hi : Half} (kl : ∀ s v, R s (lo.wr v s))
    (kh : ∀ s v, R s (hi.wr v s)) (s : State) (v : DWord) : R s (pairWrite lo hi v s) :=
  h.trans (kl _ _) (kh _ _)

/-- The relation holds across a write of a whole counter. -/
theorem writeCounter_rel (h : AccessRel R i) (s : State) (n : Nat) (v : DWord) :
    R s (s.writeCounter n v) := by
  unfold State.writeCounter
  split
  · exact h.counter _ _ _ ‹_›
  · exact h.refl _

theorem counter32_rel (h : AccessRel R i) (n : Nat) (s : State) (v : Word) :
    R s ((counter32 n).wr v s) := by
  simp only [counter32]
  split
  · exact h.refl _
  · exact writeCounter_rel h _ _ _

theorem counterLo_rel (h : AccessRel R i) (n : Nat) (s : State) (v : Word) :
    R s ((counterLo n).wr v s) := by
  simp only [counterLo]
  split
  · exact writeCounter_rel h _ _ _
  · exact h.refl _

theorem counterHi_rel (h : AccessRel R i) (n : Nat) (s : State) (v : Word) :
    R s ((counterHi n).wr v s) := by
  simp only [counterHi]
  split
  · exact writeCounter_rel h _ _ _
  · exact h.refl _

theorem counterBoth_rel (h : AccessRel R i) (n : Nat) (s : State) (v : DWord) :
    R s (counterBoth n v s) := by
  unfold counterBoth
  split
  · exact writeCounter_rel h _ _ _
  · exact h.refl _

theorem typerHalf_rel (h : AccessRel R i) (n : Nat) (s : State) (v : Word) :
    R s ((typerHalf n).wr v s) := by
  simp only [typerHalf]
  split
  · exact h.typer _ _ _ ‹_›
  · exact h.refl _

theorem filtrHalf_rel (h : AccessRel R i) (n : Nat) (s : State) (v : Word) :
    R s ((filtrHalf n).wr v s) := by
  simp only [filtrHalf]
  split
  · exact h.filtr _ _ _ ‹_›
  · exact h.refl _

theorem onlyIf_rel (h : AccessRel R i) {loc : Half} (live : Cfg → Bool) (k : ∀ s v, R s (loc.wr v s))
    (s : State) (v : Word) : R s ((loc.onlyIf live).wr v s) := by
  simp only [Half.onlyIf]
  split
  · exact k _ _
  · exact h.refl _

theorem readOnly_rel (h : AccessRel R i) (f : State → Word) (s : State) (v : Word) :
    R s ((Half.readOnly f).wr v s) := h.refl _

/-- The relation holds across every access that gives a next state. -/
theorem exec_rel (h : AccessRel R i) (e : exec i s = .next t) : R s t := by
  cases i
  case pmevcntr n a => exact access32_rel h (counter32_rel h n) e
  case pmevcntrLo n a =>
    exact access64_rel h (counterLo_rel h n) (counterHi_rel h n) (counterBoth_rel h n) e
  case pmevcntrHi n a => exact access32_rel h (counterHi_rel h n) e
  case pmccntr a => exact access32_rel h (onlyIf_rel h _ (counter32_rel h 31)) e
  case pmccntrLo a =>
    refine access64_rel h (onlyIf_rel h _ (counterLo_rel h 31)) (onlyIf_rel h _ (counterHi_rel h 31))
      (fun s v => ?_) e
    split
    · exact counterBoth_rel h 31 _ _
    · exact h.refl _
  case pmccntrHi a => exact access32_rel h (onlyIf_rel h _ (counterHi_rel h 31)) e
  case pmevtyper n a => exact access32_rel h (typerHalf_rel h n) e
  case pmccfiltr a => exact access32_rel h (onlyIf_rel h _ (typerHalf_rel h 31)) e
  case pmsvr k a =>
    exact access64_rel h (readOnly_rel h _) (readOnly_rel h _) (fun s _ => h.refl s) e
  case pmsssr a =>
    exact access64_rel h (readOnly_rel h _) (readOnly_rel h _) (fun s _ => h.refl s) e
  case pmovssr m a =>
    exact access64_rel h (readOnly_rel h _) (readOnly_rel h _) (fun s _ => h.refl s) e
  case pmevfiltr n a => exact access32_rel h (filtrHalf_rel h n) e
  case pmcntenset m a =>
    exact access64_rel h (h.cntenSet · m ·) (h.cntenSet · (m + 1) ·)
      (pairWrite_rel h (h.cntenSet · m ·) (h.cntenSet · (m + 1) ·)) e
  case pmcntenclr m a =>
    exact access64_rel h (h.cntenClr · m ·) (h.cntenClr · (m + 1) ·)
      (pairWrite_rel h (h.cntenClr · m ·) (h.cntenClr · (m + 1) ·)) e
  case pmintenset m a =>
    exact access64_rel h (h.intenSet · m ·) (h.intenSet · (m + 1) ·)
      (pairWrite_rel h (h.intenSet · m ·) (h.intenSet · (m + 1) ·)) e
  case pmintenclr m a =>
    exact access64_rel h (h.intenClr · m ·) (h.intenClr · (m + 1) ·)
      (pairWrite_rel h (h.intenClr · m ·) (h.intenClr · (m + 1) ·)) e
  case pmovsset m a =>
    exact access64_rel h (h.ovsSet · m ·) (h.ovsSet · (m + 1) ·)
      (pairWrite_rel h (h.ovsSet · m ·) (h.ovsSet · (m + 1) ·)) e
  case pmovsclr m a =>
    exact access64_rel h (h.ovsClr · m ·) (h.ovsClr · (m + 1) ·)
      (pairWrite_rel h (h.ovsClr · m ·) (h.ovsClr · (m + 1) ·)) e
  case impdef k a =>
    exact access64_rel h (h.impdef · k ·) (h.impdef · (k + 1) ·)
      (pairWrite_rel h (h.impdef · k ·) (h.impdef · (k + 1) ·)) e
  case pmcr a => exact access32_rel h h.pmcr e
  case pmsscr a =>
    refine access32_rel h (fun s v => ?_) e
    simp only [sscrHalf]
    split
    · exact h.capture ⟨a, rfl⟩ s
    · exact h.refl s
  case pmssrrLo a => exact access64_rel h h.ssrrLo h.ssrrHi h.ssrr e
  case pmssrrHi a => exact access32_rel h h.ssrrHi e
  case pmirqcr0Lo a => exact access64_rel h h.irqcr0Lo h.irqcr0Hi h.irqcr0 e
  case pmirqcr0Hi a => exact access32_rel h h.irqcr0Hi e
  case pmirqcr1 a => exact access32_rel h h.irqcr1 e
  case pmirqcr2 a => exact access32_rel h h.irqcr2 e
  case pmirqsrLo a =>
    exact access64_rel h h.irqsr (readOnly_rel h _) (fun s v => h.irqsr s _) e
  case pmdevaffLo a =>
    exact access64_rel h (readOnly_rel h _) (readOnly_rel h _) (fun s _ => h.refl s) e
  all_goals exact access32_rel h (readOnly_rel h _) e

end Sys2Proof.Machine
end

