-- ==== Sys2Proof/Laws/PerInstr.lean ====
section
/-! SUPPORT. Statements about every instruction as syntax, one lemma per constructor. -/

set_option linter.unusedSimpArgs false
set_option Elab.async false

namespace Sys2Proof.Laws

/-- The register of an instruction in the map is at a word-aligned offset of the 4KB page, and at a
doubleword-aligned one where 64-bit accesses are supported (R70, R74, R113). -/
def OffsetAligned.Statement (i : Instr) : Prop :=
  ∀ c : Cfg, i.inMap c = true →
    i.offset c < 4096 ∧ i.offset c % 4 = 0 ∧ (i.supports64 c = true → i.offset c % 8 = 0)

theorem OffsetAligned.pmevcntr (n : Nat) (a : Access) : OffsetAligned.Statement (.pmevcntr n a) := by
  intro c h
  simp [Instr.inMap, Instr.offset, Instr.supports64, Cfg.setClearPair, Cfg.svrPair, Cfg.impdefPair] at h ⊢
  omega

theorem OffsetAligned.pmevcntrLo (n : Nat) (a : Access) : OffsetAligned.Statement (.pmevcntrLo n a) := by
  intro c h
  simp [Instr.inMap, Instr.offset, Instr.supports64, Cfg.setClearPair, Cfg.svrPair, Cfg.impdefPair] at h ⊢
  omega

theorem OffsetAligned.pmevcntrHi (n : Nat) (a : Access) : OffsetAligned.Statement (.pmevcntrHi n a) := by
  intro c h
  simp [Instr.inMap, Instr.offset, Instr.supports64, Cfg.setClearPair, Cfg.svrPair, Cfg.impdefPair] at h ⊢
  omega

theorem OffsetAligned.pmccntr (a : Access) : OffsetAligned.Statement (.pmccntr a) := by
  intro c h
  simp [Instr.inMap, Instr.offset, Instr.supports64, Cfg.setClearPair, Cfg.svrPair, Cfg.impdefPair] at h ⊢

theorem OffsetAligned.pmccntrLo (a : Access) : OffsetAligned.Statement (.pmccntrLo a) := by
  intro c h
  simp [Instr.inMap, Instr.offset, Instr.supports64, Cfg.setClearPair, Cfg.svrPair, Cfg.impdefPair] at h ⊢

theorem OffsetAligned.pmccntrHi (a : Access) : OffsetAligned.Statement (.pmccntrHi a) := by
  intro c h
  simp [Instr.inMap, Instr.offset, Instr.supports64, Cfg.setClearPair, Cfg.svrPair, Cfg.impdefPair] at h ⊢

theorem OffsetAligned.pmevtyper (n : Nat) (a : Access) : OffsetAligned.Statement (.pmevtyper n a) := by
  intro c h
  simp [Instr.inMap, Instr.offset, Instr.supports64, Cfg.setClearPair, Cfg.svrPair, Cfg.impdefPair] at h ⊢
  split at h <;> omega

theorem OffsetAligned.pmccfiltr (a : Access) : OffsetAligned.Statement (.pmccfiltr a) := by
  intro c h
  simp [Instr.inMap, Instr.offset, Instr.supports64, Cfg.setClearPair, Cfg.svrPair, Cfg.impdefPair] at h ⊢

theorem OffsetAligned.pmsvr (k : Nat) (a : Access) : OffsetAligned.Statement (.pmsvr k a) := by
  intro c h
  simp [Instr.inMap, Instr.offset, Instr.supports64, Cfg.setClearPair, Cfg.svrPair, Cfg.impdefPair] at h ⊢
  omega

theorem OffsetAligned.pmsssr (a : Access) : OffsetAligned.Statement (.pmsssr a) := by
  intro c h
  simp [Instr.inMap, Instr.offset, Instr.supports64, Cfg.setClearPair, Cfg.svrPair, Cfg.impdefPair] at h ⊢
  omega

theorem OffsetAligned.pmovssr (m : Nat) (a : Access) : OffsetAligned.Statement (.pmovssr m a) := by
  intro c h
  simp [Instr.inMap, Instr.offset, Instr.supports64, Cfg.setClearPair, Cfg.svrPair, Cfg.impdefPair] at h ⊢
  omega

theorem OffsetAligned.pmevfiltr (n : Nat) (a : Access) : OffsetAligned.Statement (.pmevfiltr n a) := by
  intro c h
  simp [Instr.inMap, Instr.offset, Instr.supports64, Cfg.setClearPair, Cfg.svrPair, Cfg.impdefPair] at h ⊢
  omega

theorem OffsetAligned.pmcntenset (m : Nat) (a : Access) : OffsetAligned.Statement (.pmcntenset m a) := by
  intro c h
  simp [Instr.inMap, Instr.offset, Instr.supports64, Cfg.setClearPair, Cfg.svrPair, Cfg.impdefPair] at h ⊢
  omega

theorem OffsetAligned.pmcntenclr (m : Nat) (a : Access) : OffsetAligned.Statement (.pmcntenclr m a) := by
  intro c h
  simp [Instr.inMap, Instr.offset, Instr.supports64, Cfg.setClearPair, Cfg.svrPair, Cfg.impdefPair] at h ⊢
  omega

theorem OffsetAligned.pmintenset (m : Nat) (a : Access) : OffsetAligned.Statement (.pmintenset m a) := by
  intro c h
  simp [Instr.inMap, Instr.offset, Instr.supports64, Cfg.setClearPair, Cfg.svrPair, Cfg.impdefPair] at h ⊢
  omega

theorem OffsetAligned.pmintenclr (m : Nat) (a : Access) : OffsetAligned.Statement (.pmintenclr m a) := by
  intro c h
  simp [Instr.inMap, Instr.offset, Instr.supports64, Cfg.setClearPair, Cfg.svrPair, Cfg.impdefPair] at h ⊢
  omega

theorem OffsetAligned.pmovsclr (m : Nat) (a : Access) : OffsetAligned.Statement (.pmovsclr m a) := by
  intro c h
  simp [Instr.inMap, Instr.offset, Instr.supports64, Cfg.setClearPair, Cfg.svrPair, Cfg.impdefPair] at h ⊢
  omega

theorem OffsetAligned.pmovsset (m : Nat) (a : Access) : OffsetAligned.Statement (.pmovsset m a) := by
  intro c h
  simp [Instr.inMap, Instr.offset, Instr.supports64, Cfg.setClearPair, Cfg.svrPair, Cfg.impdefPair] at h ⊢
  omega

theorem OffsetAligned.pmcgcr (k : Nat) (a : Access) : OffsetAligned.Statement (.pmcgcr k a) := by
  intro c h
  simp [Instr.inMap, Instr.offset, Instr.supports64, Cfg.setClearPair, Cfg.svrPair, Cfg.impdefPair] at h ⊢
  omega

theorem OffsetAligned.impdef (k : Nat) (a : Access) : OffsetAligned.Statement (.impdef k a) := by
  intro c h
  simp [Instr.inMap, Instr.offset, Instr.supports64, Cfg.setClearPair, Cfg.svrPair, Cfg.impdefPair] at h ⊢
  omega

theorem OffsetAligned.pmcfgr (a : Access) : OffsetAligned.Statement (.pmcfgr a) := by
  intro c h
  simp [Instr.inMap, Instr.offset, Instr.supports64, Cfg.setClearPair, Cfg.svrPair, Cfg.impdefPair] at h ⊢

theorem OffsetAligned.pmcr (a : Access) : OffsetAligned.Statement (.pmcr a) := by
  intro c h
  simp [Instr.inMap, Instr.offset, Instr.supports64, Cfg.setClearPair, Cfg.svrPair, Cfg.impdefPair] at h ⊢

theorem OffsetAligned.pmiidr (a : Access) : OffsetAligned.Statement (.pmiidr a) := by
  intro c h
  simp [Instr.inMap, Instr.offset, Instr.supports64, Cfg.setClearPair, Cfg.svrPair, Cfg.impdefPair] at h ⊢

theorem OffsetAligned.pmceid (k : Nat) (a : Access) : OffsetAligned.Statement (.pmceid k a) := by
  intro c h
  simp [Instr.inMap, Instr.offset, Instr.supports64, Cfg.setClearPair, Cfg.svrPair, Cfg.impdefPair] at h ⊢
  omega

theorem OffsetAligned.pmsscr (a : Access) : OffsetAligned.Statement (.pmsscr a) := by
  intro c h
  simp [Instr.inMap, Instr.offset, Instr.supports64, Cfg.setClearPair, Cfg.svrPair, Cfg.impdefPair] at h ⊢

theorem OffsetAligned.pmssrrLo (a : Access) : OffsetAligned.Statement (.pmssrrLo a) := by
  intro c h
  simp [Instr.inMap, Instr.offset, Instr.supports64, Cfg.setClearPair, Cfg.svrPair, Cfg.impdefPair] at h ⊢

theorem OffsetAligned.pmssrrHi (a : Access) : OffsetAligned.Statement (.pmssrrHi a) := by
  intro c h
  simp [Instr.inMap, Instr.offset, Instr.supports64, Cfg.setClearPair, Cfg.svrPair, Cfg.impdefPair] at h ⊢

theorem OffsetAligned.pmirqcr0Lo (a : Access) : OffsetAligned.Statement (.pmirqcr0Lo a) := by
  intro c h
  simp [Instr.inMap, Instr.offset, Instr.supports64, Cfg.setClearPair, Cfg.svrPair, Cfg.impdefPair] at h ⊢

theorem OffsetAligned.pmirqcr0Hi (a : Access) : OffsetAligned.Statement (.pmirqcr0Hi a) := by
  intro c h
  simp [Instr.inMap, Instr.offset, Instr.supports64, Cfg.setClearPair, Cfg.svrPair, Cfg.impdefPair] at h ⊢

theorem OffsetAligned.pmirqcr1 (a : Access) : OffsetAligned.Statement (.pmirqcr1 a) := by
  intro c h
  simp [Instr.inMap, Instr.offset, Instr.supports64, Cfg.setClearPair, Cfg.svrPair, Cfg.impdefPair] at h ⊢

theorem OffsetAligned.pmirqcr2 (a : Access) : OffsetAligned.Statement (.pmirqcr2 a) := by
  intro c h
  simp [Instr.inMap, Instr.offset, Instr.supports64, Cfg.setClearPair, Cfg.svrPair, Cfg.impdefPair] at h ⊢

theorem OffsetAligned.pmirqsrLo (a : Access) : OffsetAligned.Statement (.pmirqsrLo a) := by
  intro c h
  simp [Instr.inMap, Instr.offset, Instr.supports64, Cfg.setClearPair, Cfg.svrPair, Cfg.impdefPair] at h ⊢

theorem OffsetAligned.pmirqsrHi (a : Access) : OffsetAligned.Statement (.pmirqsrHi a) := by
  intro c h
  simp [Instr.inMap, Instr.offset, Instr.supports64, Cfg.setClearPair, Cfg.svrPair, Cfg.impdefPair] at h ⊢

theorem OffsetAligned.pmdevaffLo (a : Access) : OffsetAligned.Statement (.pmdevaffLo a) := by
  intro c h
  simp [Instr.inMap, Instr.offset, Instr.supports64, Cfg.setClearPair, Cfg.svrPair, Cfg.impdefPair] at h ⊢

theorem OffsetAligned.pmdevaffHi (a : Access) : OffsetAligned.Statement (.pmdevaffHi a) := by
  intro c h
  simp [Instr.inMap, Instr.offset, Instr.supports64, Cfg.setClearPair, Cfg.svrPair, Cfg.impdefPair] at h ⊢

theorem OffsetAligned.pmauthstatus (a : Access) : OffsetAligned.Statement (.pmauthstatus a) := by
  intro c h
  simp [Instr.inMap, Instr.offset, Instr.supports64, Cfg.setClearPair, Cfg.svrPair, Cfg.impdefPair] at h ⊢

theorem OffsetAligned.pmdevarch (a : Access) : OffsetAligned.Statement (.pmdevarch a) := by
  intro c h
  simp [Instr.inMap, Instr.offset, Instr.supports64, Cfg.setClearPair, Cfg.svrPair, Cfg.impdefPair] at h ⊢

theorem OffsetAligned.pmdevid (a : Access) : OffsetAligned.Statement (.pmdevid a) := by
  intro c h
  simp [Instr.inMap, Instr.offset, Instr.supports64, Cfg.setClearPair, Cfg.svrPair, Cfg.impdefPair] at h ⊢

theorem OffsetAligned.pmdevtype (a : Access) : OffsetAligned.Statement (.pmdevtype a) := by
  intro c h
  simp [Instr.inMap, Instr.offset, Instr.supports64, Cfg.setClearPair, Cfg.svrPair, Cfg.impdefPair] at h ⊢

theorem OffsetAligned.pmpidr4 (a : Access) : OffsetAligned.Statement (.pmpidr4 a) := by
  intro c h
  simp [Instr.inMap, Instr.offset, Instr.supports64, Cfg.setClearPair, Cfg.svrPair, Cfg.impdefPair] at h ⊢

theorem OffsetAligned.pmpidr5 (a : Access) : OffsetAligned.Statement (.pmpidr5 a) := by
  intro c h
  simp [Instr.inMap, Instr.offset, Instr.supports64, Cfg.setClearPair, Cfg.svrPair, Cfg.impdefPair] at h ⊢

theorem OffsetAligned.pmpidr6 (a : Access) : OffsetAligned.Statement (.pmpidr6 a) := by
  intro c h
  simp [Instr.inMap, Instr.offset, Instr.supports64, Cfg.setClearPair, Cfg.svrPair, Cfg.impdefPair] at h ⊢

theorem OffsetAligned.pmpidr7 (a : Access) : OffsetAligned.Statement (.pmpidr7 a) := by
  intro c h
  simp [Instr.inMap, Instr.offset, Instr.supports64, Cfg.setClearPair, Cfg.svrPair, Cfg.impdefPair] at h ⊢

theorem OffsetAligned.pmpidr0 (a : Access) : OffsetAligned.Statement (.pmpidr0 a) := by
  intro c h
  simp [Instr.inMap, Instr.offset, Instr.supports64, Cfg.setClearPair, Cfg.svrPair, Cfg.impdefPair] at h ⊢

theorem OffsetAligned.pmpidr1 (a : Access) : OffsetAligned.Statement (.pmpidr1 a) := by
  intro c h
  simp [Instr.inMap, Instr.offset, Instr.supports64, Cfg.setClearPair, Cfg.svrPair, Cfg.impdefPair] at h ⊢

theorem OffsetAligned.pmpidr2 (a : Access) : OffsetAligned.Statement (.pmpidr2 a) := by
  intro c h
  simp [Instr.inMap, Instr.offset, Instr.supports64, Cfg.setClearPair, Cfg.svrPair, Cfg.impdefPair] at h ⊢

theorem OffsetAligned.pmpidr3 (a : Access) : OffsetAligned.Statement (.pmpidr3 a) := by
  intro c h
  simp [Instr.inMap, Instr.offset, Instr.supports64, Cfg.setClearPair, Cfg.svrPair, Cfg.impdefPair] at h ⊢

theorem OffsetAligned.pmcidr0 (a : Access) : OffsetAligned.Statement (.pmcidr0 a) := by
  intro c h
  simp [Instr.inMap, Instr.offset, Instr.supports64, Cfg.setClearPair, Cfg.svrPair, Cfg.impdefPair] at h ⊢

theorem OffsetAligned.pmcidr1 (a : Access) : OffsetAligned.Statement (.pmcidr1 a) := by
  intro c h
  simp [Instr.inMap, Instr.offset, Instr.supports64, Cfg.setClearPair, Cfg.svrPair, Cfg.impdefPair] at h ⊢

theorem OffsetAligned.pmcidr2 (a : Access) : OffsetAligned.Statement (.pmcidr2 a) := by
  intro c h
  simp [Instr.inMap, Instr.offset, Instr.supports64, Cfg.setClearPair, Cfg.svrPair, Cfg.impdefPair] at h ⊢

theorem OffsetAligned.pmcidr3 (a : Access) : OffsetAligned.Statement (.pmcidr3 a) := by
  intro c h
  simp [Instr.inMap, Instr.offset, Instr.supports64, Cfg.setClearPair, Cfg.svrPair, Cfg.impdefPair] at h ⊢

end Sys2Proof.Laws
end

