-- ==== Sys2Proof/Tests/Slice0.lean ====
section
/-! SUPPORT. Tests: the configurations of spec 95, ill-formed terms the checks refuse, every constructor's word
decoded, one step of each register and of each hardware step with the values of spec 95's vectors, and, for
every statement with hypotheses, a witness that meets them. A test name ends in the vector it comes from. -/

set_option Elab.async false

open Sys2Proof Sys2Proof.Machine

namespace Sys2Proof.Tests

/-! ### Configurations and states -/

/-- A counter of spec 95: an event number in PMEVTYPER<n>[15:0], no filter register. -/
def ctr (n w : Nat) : MonCfg :=
  { Config.refCounter n w with
    hasFiltr := false, filtrMask := 0, filtrFixed := 0, sel := .typerIs 0xFFFF [], chainRows := [] }

/-- The cycle counter of spec 95. -/
def cyc (w : Nat) : MonCfg := { ctr 31 w with sel := .always, typerMask := 0 }

/-- CfgA of spec 95. -/
def cfgA : Cfg :=
  { Config.reference with
    size := 32, mons := [ctr 0 32, ctr 1 32, ctr 2 32, ctr 3 32, cyc 32], groups := [5]
    hdbg := false, tro := false, ex := false, chain := false, ss := false, ssrr := false, svrMap := []
    svr64 := [], hasSnapReqSignal := false, msi := false, msiNsCfg := false, hasAffinity := false
    pair64 := false, impdef := [] }

/-- CfgB of spec 95. -/
def cfgB : Cfg :=
  { cfgA with
    size := 16
    mons := [{ ctr 0 16 with sel := .typerIs 0xFFFF [0xC4] },
      { ctr 1 16 with sel := .typerIs 0xFFFF [0xC4], chainRows := [⟨0xFFFF, 0xC4, 0, 0⟩] }]
    groups := [2], chain := true, cc := false, ccd := false }

/-- CfgC of spec 95. -/
def cfgC : Cfg :=
  { cfgA with
    size := 48, mons := [ctr 0 48, ctr 1 48, cyc 48], groups := [3], ccd := false, fzo := false
    ss := true, ssrr := true
    svrMap := [.counterLo 0, .counterHi 0, .counterLo 1, .counterHi 1, .counterLo 31, .counterHi 31,
      .ovs 0, .ssr] ++ List.replicate 56 .unused
    msi := true, msiNsCfg := true, hasIrqWire := false, dual := true, pair64 := true }

/-- CfgD of spec 95. -/
def cfgD : Cfg := { cfgA with na := true, hdbg := true }

/-- A PMU in STOP with a configuration of spec 95, and every register 0. -/
def idle (c : Cfg) : State := { State.reset with cfg := c, filtr := [], svr := [] }

/-- The same in RUN, with these monitors enabled. -/
def busy (c : Cfg) (enables : Vec) : State :=
  { idle c with pmcr := { State.reset.pmcr with e := true }, st := .run, cnten := enables }

/-- An occurrence of event `id`, attributable to the Non-secure state, which `State.reset` allows. -/
def ev (id : Nat) : Occ := ⟨id, some .nonSecure, false, false⟩

/-- The step gives a next state of which `p` holds. -/
def after (r : Result) (p : State → Bool) : Bool :=
  match r with
  | .next t => p t
  | .fault _ => false
  | .refused _ => false

/-- The step gives a next state that answers this word. -/
def answers (r : Result) (w : Word) : Bool := after r (fun t => t.resp == .data32 w)

/-- The step gives a next state that answers this doubleword. -/
def answers64 (r : Result) (d : DWord) : Bool := after r (fun t => t.resp == .data64 d)

/-- Accesses: Secure, through Page 0. -/
def rd : Access := ⟨.p0, false, .rd32⟩
def rdw : Access := ⟨.p0, false, .rd64⟩
def wr (v : Word) : Access := ⟨.p0, false, .wr32 v⟩
def wrw (v : DWord) : Access := ⟨.p0, false, .wr64 v⟩
/-- A Non-secure write. -/
def wrNs (v : Word) : Access := ⟨.p0, true, .wr32 v⟩
/-- A read through Page 1. -/
def rd1 : Access := ⟨.p1, false, .rd32⟩

/-! ### Well-formed and ill-formed terms -/

theorem test_reference_wf : Config.reference.wf = true := by decide
theorem test_cfgA_wf : cfgA.wf = true := by decide
theorem test_cfgB_wf : cfgB.wf = true := by decide
theorem test_cfgC_wf : cfgC.wf = true := by decide
theorem test_cfgD_wf : cfgD.wf = true := by decide

/-- `Instr.wf`: a register outside the map, an index out of range, a page that does not hold the register, an
unsupported size, each refused; and the neighbours accepted. -/
theorem test_instr_layout_refused : (Instr.pmevcntr 0 rd).wf cfgC = false ∧ (Instr.pmevcntrLo 0 rd).wf cfgA = false
    ∧ (Instr.pmccntr rd).wf cfgC = false ∧ (Instr.pmccntrLo rd).wf cfgA = false
    ∧ (Instr.pmevcntr 31 rd).wf cfgA = false ∧ (Instr.pmccfiltr rd).wf cfgB = false := by decide
theorem test_instr_index_refused : (Instr.pmevcntr 256 rd).wf cfgA = false
    ∧ (Instr.pmevcntrHi 128 rd1).wf cfgC = false ∧ (Instr.pmevtyper 128 rd).wf cfgC = false
    ∧ (Instr.pmevfiltr 128 rd).wf cfgA = false ∧ (Instr.pmsvr 64 rd1).wf cfgC = false
    ∧ (Instr.pmcntenset 8 rd).wf cfgA = false ∧ (Instr.pmcgcr 4 rd).wf cfgA = false
    ∧ (Instr.pmceid 4 rd).wf cfgA = false ∧ (Instr.impdef 32 rd).wf cfgA = false := by decide
theorem test_instr_snapshot_refused : (Instr.pmsvr 0 rd).wf cfgA = false ∧ (Instr.pmsssr rd).wf cfgA = false
    ∧ (Instr.pmovssr 0 rd).wf cfgA = false ∧ (Instr.pmovssr 1 rd1).wf cfgC = false
    ∧ (Instr.pmsvr 7 rd1).wf cfgC = false := by decide
theorem test_instr_page_refused : (Instr.pmcr rd1).wf cfgC = false ∧ (Instr.pmcr rd1).wf cfgA = false
    ∧ (Instr.pmevcntrLo 0 rd).wf cfgC = false := by decide
theorem test_instr_size_refused : (Instr.pmcr rdw).wf cfgA = false ∧ (Instr.pmcntenset 0 rdw).wf cfgA = false
    ∧ (Instr.pmcntenset 1 rdw).wf cfgC = false := by decide
theorem test_instr_accepted : (Instr.pmevcntr 255 rd).wf cfgA = true ∧ (Instr.pmevcntrLo 127 rdw).wf Config.reference = true
    ∧ (Instr.pmcntenset 6 rdw).wf cfgC = true ∧ (Instr.pmcr rd).wf cfgC = true
    ∧ (Instr.pmsvr 63 rd1).wf cfgC = true ∧ (Instr.pmovssr 0 rd1).wf cfgC = true := by decide

/-- `Cfg.wfMonitors` refuses a size R286 does not list, no monitors, a group sum that is not the number of
monitors, an index that is not the group's, and a PMU none of whose monitors has the largest size. -/
theorem test_cfg_monitors_refused : { cfgA with size := 33 }.wfMonitors = false
    ∧ { cfgA with mons := [], groups := [0] }.wfMonitors = false
    ∧ { cfgA with groups := [4] }.wfMonitors = false ∧ { cfgA with groups := [] }.wfMonitors = false
    ∧ { cfgA with mons := [ctr 0 32, ctr 1 32, ctr 2 32, ctr 4 32, cyc 32] }.wfMonitors = false
    ∧ { cfgA with size := 36 }.wfMonitors = false
    ∧ { cfgA with mons := [ctr 0 32, ctr 2 32, ctr 1 32, ctr 3 32, cyc 32] }.wfMonitors = false := by decide
theorem test_cfg_groups_refused : { cfgC with groups := [33, 1] }.wfMonitors = false
    ∧ { cfgC with mons := [ctr 0 48, ctr 200 48], groups := [2] }.wfMonitors = false := by decide
/-- With groups and the cycle counter the group of index 31 may lack any one monitor of its range (91 N14); every
other group has all of its range (R198). An index outside the ranges, a repeated one or one out of order is
refused. -/
theorem test_cfg_grouped_indices_N14 :
    { cfgA with mons := [ctr 0 32, ctr 1 32, ctr 32 32, cyc 32], groups := [3, 1] }.wfIndices [0, 1, 31, 32] = true
    ∧ { cfgA with groups := [3, 1] }.wfIndices [1, 2, 31, 32] = true
    ∧ { cfgA with groups := [3, 1] }.wfIndices [0, 1, 2, 31] = false
    ∧ { cfgA with groups := [3, 1] }.wfIndices [0, 1, 3, 32] = false
    ∧ { cfgA with groups := [3, 1] }.wfIndices [0, 0, 1, 32] = false
    ∧ { cfgB with groups := [3, 1] }.wfIndices [0, 1, 31, 32] = false
    ∧ { cfgA with mons := [ctr 0 32, ctr 2 32, ctr 32 32, cyc 32], groups := [3, 1] }.wfIndices [2, 0, 31, 32] = false := by
  decide
/-- R198's worked example, four and six monitors, without the cycle counter; and one monitor short. -/
theorem test_cfg_grouped_indices_R198 :
    { cfgB with groups := [4, 6] }.wfIndices [0, 1, 2, 3, 32, 33, 34, 35, 36, 37] = true
    ∧ { cfgB with groups := [4, 6] }.wfIndices [0, 1, 2, 3, 32, 33, 34, 35, 36] = false
    ∧ { cfgB with groups := [4, 6] }.wfIndices [0, 2, 3, 32, 33, 34, 35, 36, 37] = false := by decide
/-- `MonCfg.wf` refuses each of its cases. -/
theorem test_monitor_refused : (ctr 0 33).wf cfgA = false ∧ (ctr 0 0).wf cfgA = false
    ∧ { ctr 0 32 with hasOvf := false }.wf cfgA = false
    ∧ { ctr 0 32 with typerWritable := false }.wf cfgA = false
    ∧ { ctr 0 32 with filtrMask := 1 }.wf cfgA = false
    ∧ { ctr 0 32 with chainRows := [⟨0, 0, 0, 0⟩] }.wf cfgA = false
    ∧ { ctr 0 16 with incr := [(1, 65536)] }.wf cfgB = false ∧ { ctr 0 16 with incr := [(1, 0)] }.wf cfgB = false
    ∧ { ctr 0 16 with incrElse := 0 }.wf cfgB = false
    ∧ { ctr 128 32 with hasFiltr := true }.wf cfgA = false := by decide
/-- V20.12: PMEVTYPER<128> would sit on PMSVR<0>. -/
theorem test_typer_on_svr_refused_V20_12 : (ctr 128 32).wf cfgC = false ∧ (ctr 128 32).wf cfgA = true := by decide
theorem test_cfg_extensions_refused : { cfgB with cc := true }.wfExtensions = false
    ∧ { cfgC with ccd := true }.wfExtensions = false ∧ { cfgC with ccInWait := true }.wfExtensions = false
    ∧ { cfgA with chainOnFreeze := .dropped }.wfExtensions = false
    ∧ { cfgA with hasIrq := false }.wfExtensions = false
    ∧ { cfgA with hasIrq := false, mons := [] }.wfExtensions = false := by decide
/-- R8 gives `hasSnapReqSignal` no constraint: the signal without the snapshot extension is accepted, and its
assertion does nothing (R211: the precondition is `Cfg.SS`). -/
theorem test_snapReq_without_ss : { cfgA with hasSnapReqSignal := true }.wfExtensions = true
    ∧ (idle { cfgA with hasSnapReqSignal := true }).take .snapReq
      = .next (idle { cfgA with hasSnapReqSignal := true }) := ⟨by decide, rfl⟩
theorem test_cfg_snapshot_refused : { cfgA with ssrr := true }.wfSnapshot = false
    ∧ { cfgA with svr64 := [0] }.wfSnapshot = false ∧ { cfgC with svrMap := [.ssr] }.wfSnapshot = false
    ∧ { cfgC with svrMap := List.replicate 64 .unused }.wfSnapshot = false
    ∧ { cfgC with svrMap := List.replicate 64 .ssr }.wfSnapshot = false
    ∧ { cfgC with svrMap := .counterLo 2 :: .ssr :: List.replicate 62 .unused }.wfSnapshot = false
    ∧ { cfgC with svrMap := .counterHi 0 :: .ssr :: List.replicate 62 .unused }.wfSnapshot = false
    ∧ { cfgC with svrMap := .ovs 1 :: .ssr :: List.replicate 62 .unused }.wfSnapshot = false
    ∧ { cfgC with svr64 := [3] }.wfSnapshot = false := by decide
theorem test_cfg_interface_refused : { cfgA with base0 := 0x800 }.wfInterface = false
    ∧ { cfgA with base1 := 0x800 }.wfInterface = false
    ∧ { cfgC with id1 := cfgC.id0 }.wfInterface = false ∧ { cfgC with paSize := 57 }.wfInterface = false
    ∧ { cfgC with msiNsWritable := true }.wfInterface = false := by decide
theorem test_cfg_ident_refused : { cfgA with jepId := 0 }.wfIdent = false
    ∧ { cfgA with part := 0x1000 }.wfIdent = false ∧ { cfgA with id0 := ⟨0, 0, 0, 6⟩ }.wfIdent = false
    ∧ { cfgC with id1 := ⟨0, 0, 0, 8⟩ }.wfIdent = false
    ∧ { cfgA with hasAffinity := true, aff := ⟨.exact, 4, 0, 0, 0, 0, 0, false, false⟩ }.wfIdent = false
    ∧ { cfgA with aff := ⟨.exact, 4, 0, 0, 0, 0, 0, false, false⟩ }.wfIdent = false
    ∧ { cfgA with hasAffinity := true, aff := ⟨.subset, 0, 7, 0, 0, 0, 0, false, false⟩ }.wfIdent = false
    ∧ { cfgA with ceid := [] }.wfIdent = false ∧ { cfgA with ceidBase := [] }.wfIdent = false
    ∧ { cfgA with impdef := [⟨32, true, true, 0, 0, false⟩] }.wfIdent = false
    ∧ { cfgA with impdef := [⟨0, false, true, 0, 0, false⟩] }.wfIdent = false
    ∧ { cfgA with impdef := [⟨1, true, true, 0, 0, true⟩] }.wfIdent = false
    ∧ { cfgA with impdef := [⟨0, true, true, 0, 0, true⟩] }.wfIdent = false := by decide
/-- Log 12: in a dual-page PMU the two registers of a 64-bit IMPDEF register are in the same pages. -/
theorem test_impdef_pair_pages :
    { cfgC with impdef := [⟨0, true, false, 0, 0, true⟩, ⟨1, false, true, 0, 0, false⟩] }.wfIdent = false
    ∧ { cfgC with impdef := [⟨0, true, false, 0, 0, true⟩, ⟨1, true, false, 0, 0, false⟩] }.wfIdent = true := by decide

/-! ### Decoding: a word of every constructor, its offset from R112 and R113 -/

theorem test_decode_counters : decodeTableWord 16 0b0000000000001000 = some (.pmevcntrLo 1 rd)
    ∧ decodeTableWord 16 0b0000000000001100 = some (.pmevcntrHi 1 rd)
    ∧ decodeTableWord 16 0b0000000011111000 = some (.pmccntrLo rd)
    ∧ decodeTableWord 16 0b0000000011111100 = some (.pmccntrHi rd)
    ∧ decode cfgA (tableFrame 16 0b0000000000001100) = .ok (.instr (.pmevcntr 3 rd))
    ∧ decode cfgA (tableFrame 16 0b0000000001111100) = .ok (.instr (.pmccntr rd)) := by decide
theorem test_decode_configs : decodeTableWord 16 0b0000010000001100 = some (.pmevtyper 3 rd)
    ∧ decodeTableWord 16 0b0000010001111100 = some (.pmccfiltr rd)
    ∧ decodeTableWord 16 0b0000101000001000 = some (.pmevfiltr 2 rd) := by decide
theorem test_decode_set_clear : decodeTableWord 16 0b0000110000000100 = some (.pmcntenset 1 rd)
    ∧ decodeTableWord 16 0b0000110000100100 = some (.pmcntenclr 1 rd)
    ∧ decodeTableWord 16 0b0000110001000100 = some (.pmintenset 1 rd)
    ∧ decodeTableWord 16 0b0000110001100100 = some (.pmintenclr 1 rd)
    ∧ decodeTableWord 16 0b0000110010000100 = some (.pmovsclr 1 rd)
    ∧ decodeTableWord 16 0b0000110011000100 = some (.pmovsset 1 rd) := by decide
theorem test_decode_control : decodeTableWord 16 0b0000110011100100 = some (.pmcgcr 1 rd)
    ∧ decodeTableWord 16 0b0000110110000100 = some (.impdef 1 rd)
    ∧ decodeTableWord 16 0b0000111000000000 = some (.pmcfgr rd)
    ∧ decodeTableWord 16 0b0000111000000100 = some (.pmcr rd)
    ∧ decodeTableWord 16 0b0000111000001000 = some (.pmiidr rd)
    ∧ decodeTableWord 16 0b0000111000100100 = some (.pmceid 1 rd) := by decide
theorem test_decode_snapshot : decodeTableWord 16 0b0000111000110000 = some (.pmsscr rd)
    ∧ decodeTableWord 16 0b0000111000111000 = some (.pmssrrLo rd)
    ∧ decodeTableWord 16 0b0000111000111100 = some (.pmssrrHi rd)
    ∧ decodeTableWord 16 0b0000011000000100 = some (.pmsvr 1 rd)
    ∧ decodeTableWord 16 0b0000011000011000 = some (.pmovssr 0 rd)
    ∧ decodeTableWord 16 0b0000011000100100 = some (.pmsssr rd) := by decide
theorem test_decode_message : decodeTableWord 16 0b0000111010000000 = some (.pmirqcr0Lo rd)
    ∧ decodeTableWord 16 0b0000111010000100 = some (.pmirqcr0Hi rd)
    ∧ decodeTableWord 16 0b0000111010001000 = some (.pmirqcr1 rd)
    ∧ decodeTableWord 16 0b0000111010001100 = some (.pmirqcr2 rd)
    ∧ decodeTableWord 16 0b0000111011111000 = some (.pmirqsrLo rd)
    ∧ decodeTableWord 16 0b0000111011111100 = some (.pmirqsrHi rd) := by decide
theorem test_decode_device : decodeTableWord 16 0b0000111110101000 = some (.pmdevaffLo rd)
    ∧ decodeTableWord 16 0b0000111110101100 = some (.pmdevaffHi rd)
    ∧ decodeTableWord 16 0b0000111110111000 = some (.pmauthstatus rd)
    ∧ decodeTableWord 16 0b0000111110111100 = some (.pmdevarch rd)
    ∧ decodeTableWord 16 0b0000111111001000 = some (.pmdevid rd)
    ∧ decodeTableWord 16 0b0000111111001100 = some (.pmdevtype rd) := by decide
theorem test_decode_ids : decodeTableWord 16 0b0000111111010000 = some (.pmpidr4 rd)
    ∧ decodeTableWord 16 0b0000111111010100 = some (.pmpidr5 rd)
    ∧ decodeTableWord 16 0b0000111111011000 = some (.pmpidr6 rd)
    ∧ decodeTableWord 16 0b0000111111011100 = some (.pmpidr7 rd)
    ∧ decodeTableWord 16 0b0000111111100000 = some (.pmpidr0 rd)
    ∧ decodeTableWord 16 0b0000111111100100 = some (.pmpidr1 rd)
    ∧ decodeTableWord 16 0b0000111111101000 = some (.pmpidr2 rd)
    ∧ decodeTableWord 16 0b0000111111101100 = some (.pmpidr3 rd)
    ∧ decodeTableWord 16 0b0000111111110000 = some (.pmcidr0 rd)
    ∧ decodeTableWord 16 0b0000111111110100 = some (.pmcidr1 rd)
    ∧ decodeTableWord 16 0b0000111111111000 = some (.pmcidr2 rd)
    ∧ decodeTableWord 16 0b0000111111111100 = some (.pmcidr3 rd) := by decide
/-- The other fields of a frame (log 5): offset in bits 11..0, page in 16, write in 17, size in 18, `ns` in 20,
the value from bit 32. -/
theorem test_decode_forms : decodeTableWord 96 0x0000000089ABCDEF00020E04 = some (.pmcr (wr 0x89ABCDEF))
    ∧ decodeTableWord 96 0x0123456789ABCDEF00060E80 = some (.pmirqcr0Lo (wrw 0x0123456789ABCDEF))
    ∧ decodeTableWord 96 0x040E38 = some (.pmssrrLo rdw)
    ∧ decodeTableWord 96 0x0000000000000099_00120E88 = some (.pmirqcr1 (wrNs 0x99))
    ∧ decode cfgC (tableFrame 96 0x010008) = .ok (.instr (.pmevcntrLo 1 rd1)) := by decide
/-- V20.3, V20.4: an 8-bit or 16-bit access, a misaligned one and an unsupported 64-bit one are refused. -/
theorem test_decode_refuses_V20_3 : decodeTableWord 24 0x080E04 = none ∧ decodeTableWord 16 0x0E05 = none
    ∧ decode cfgA (tableFrame 16 0x0E05) = .error .misaligned
    ∧ decode cfgA (tableFrame 24 0x040E00) = .error .unsupported64
    ∧ decode cfgA (tableFrame 24 0x010E00) = .error .noSuchPage
    ∧ decode cfgA (tableFrame 24 0x04000C) = .error .misaligned64
    ∧ decode cfgA (tableFrame 40 0x0100000E00) = .error .strayValue
    ∧ decode cfgA (tableFrame 16 0x1000) = .error .reservedFrameBits ∧ decode cfgA [] = .error .badLength := by decide
/-- V20.1, V20.2, V20.7, V20.8: reserved locations. -/
theorem test_decode_reserved_V20_1 : decode cfgA (tableFrame 16 0xCA0) = .ok (.reserved rd)
    ∧ decode cfgA (tableFrame 16 0xE0C) = .ok (.reserved rd) ∧ decode cfgA (tableFrame 16 0xF00) = .ok (.reserved rd)
    ∧ decode cfgC (tableFrame 24 0x010E04) = .ok (.reserved rd1)
    ∧ decode cfgC (tableFrame 16 0xC80) = .ok (.reserved rd) := by decide
theorem test_encode_words : encode cfgA (.pmevcntr 3 rd) = tableFrame 16 0x00C
    ∧ encode Config.reference (.pmcr (wr 0x89ABCDEF)) = tableFrame 96 0x0000000089ABCDEF00020E04 := by decide

/-! ### One step of each register -/

theorem test_pmevcntr_stops_V42_2_V42_13 : after (exec (.pmevcntr 0 (wr 0x1234FFFE)) (idle cfgB))
      (fun t => t.xAt 0 == 0xFFFE) = true
    ∧ after (exec (.pmevcntr 0 (wr 0x100)) ((busy cfgD 1).putX 0 0x10))
      (fun t => t.readMonitorReg (.cntr 0) == 0x10) = true := by decide
theorem test_pmevcntr_pends_V42_11 : after (exec (.pmevcntr 0 (wr 0x100)) ((busy cfgA 1).putX 0 0x10))
    (fun t => t.readMonitorReg (.cntr 0) == 0x100 && t.xAt 0 == 0x10) = true := by decide
theorem test_pmevcntrLo_wide_V42_3 : after (exec (.pmevcntrLo 1 (wrw 0xFFFFFFFFFFFFFFFF)) (idle cfgC))
    (fun t => t.xAt 1 == 0x0000FFFFFFFFFFFF) = true := by decide
theorem test_pmevcntrHi_composes_V42_4 :
    after (exec (.pmevcntrHi 0 (wr 0xFFFFFFFF)) ((idle cfgC).putX 0 5))
      (fun t => t.xAt 0 == 0x0000FFFF00000005) = true := by decide
theorem test_pmccntrLo_is_monitor31_V42_5 : after (exec (.pmccntrLo (wrw 0x100000000)) (idle cfgC))
    (fun t => t.xAt 31 == 0x100000000) = true := by decide
theorem test_pmccntrHi_reads : answers (exec (.pmccntrHi rd1) ((idle cfgC).putX 31 0x1200000034)) 0x12 = true := by
  decide
theorem test_pmccntr_reads_V42_6 : answers (exec (.pmccntr rd) ((idle cfgA).putX 31 0x55)) 0x55 = true := by decide
theorem test_pmevtyper_masks_V42_7 : after (exec (.pmevtyper 0 (wr 0x12345678)) (idle cfgA))
    (fun t => t.typerAt 0 == 0x5678) = true := by decide
theorem test_pmccfiltr_fixed_V42_8 : after (exec (.pmccfiltr (wr 0xFFFFFFFF)) (idle cfgA))
    (fun t => t.typerAt 31 == 0) = true := by decide
theorem test_pmevfiltr_absent_V42_9 : after (exec (.pmevfiltr 0 (wr 1)) (idle cfgA))
    (fun t => t.filtr == []) = true := by decide

theorem test_pmcntenset_V43_3 : after (exec (.pmcntenset 0 (wr 0xFFFFFFFF)) (idle cfgA))
    (fun t => t.cnten == 0x8000000F) = true := by decide
theorem test_pmcntenset_pair_V43_11 : after (exec (.pmcntenset 0 (wrw 0xFFFFFFFF80000003)) (idle cfgC))
    (fun t => t.cnten == 0x80000003) = true := by decide
theorem test_pmcntenclr_V43_2 : after (exec (.pmcntenclr 0 (wr 4)) (busy cfgA 0x80000005))
    (fun t => t.cnten == 0x80000001) = true := by decide
theorem test_pmintenset_V43_6 : after (exec (.pmintenset 0 (wr 1)) { busy cfgA 0 with ovs := 1 })
    (fun t => t.irqCond) = true := by decide
theorem test_pmintenclr_V43_5 : after (exec (.pmintenclr 0 (wr 1)) { idle cfgA with inten := 3 })
    (fun t => t.inten == 2) = true := by decide
theorem test_pmovsset_V41_4 : after (exec (.pmovsset 0 (wr 4)) { idle cfgA with pmcr := ⟨true, false, false, false, true, false, false⟩ })
    (fun t => t.ovs == 4 && t.opState == .wait) = true := by decide
theorem test_pmovsclr_V43_8 : after (exec (.pmovsclr 0 (wr 1)) { idle cfgA with ovs := 0x80000001 })
    (fun t => t.ovs == 0x80000000) = true := by decide

theorem test_pmcr_resets_V44_1_V44_7 :
    after (exec (.pmcr (wr 3)) { idle cfgA with x := [(0, 0x1234), (31, 0x55)], ovs := 1 })
      (fun t => t.x == [(31, 0x55)] && t.ovs == 1 && t.readPmcr == 1) = true
    ∧ after (exec (.pmcr (wr 3)) { busy cfgA 0 with pend := [⟨.cntr 0, 0x100⟩] })
      (fun t => t.readMonitorReg (.cntr 0) == 0 && t.pend == []) = true := by decide
theorem test_pmcr_bits_V44_3_V44_5 : after (exec (.pmcr (wr 0xFFFFFFFF)) (idle cfgB)) (fun t => t.readPmcr == 0x201) = true
    ∧ answers (exec (.pmcr rd) (busy cfgD 0)) 0x101 = true ∧ answers (exec (.pmcr rd) (idle cfgD)) 0 = true := by decide
theorem test_pmcfgr_V44_10 : answers (exec (.pmcfgr rd) (idle cfgA)) 0x0020DF04 = true
    ∧ answers (exec (.pmcfgr rd) (idle cfgB)) 0x00200F01 = true
    ∧ answers (exec (.pmcfgr rd) (idle cfgD)) 0x0122DF04 = true := by decide
theorem test_pmcfgr_pages_V44_12 : answers (exec (.pmcfgr rd) (idle cfgC)) 0x00506F02 = true
    ∧ answers (exec (.pmcfgr rd1) (idle cfgC)) 0x00406F02 = true := by decide
theorem test_pmcgcr_V41_G1 : answers (exec (.pmcgcr 0 rd) (idle { cfgA with groups := [4, 6] })) 0x604 = true
    ∧ answers (exec (.pmcgcr 0 rd) (idle cfgA)) 0 = true := by decide
theorem test_pmcgcr_V41_G2 :
    answers (exec (.pmcgcr 1 rd) (idle { cfgA with groups := [4, 4, 6, 6, 2, 2] })) 0x202 = true := by decide
theorem test_pmceid_V44_15 : answers (exec (.pmceid 0 rd) (idle cfgA)) 0x00060000 = true := by decide
theorem test_impdef_absent_V44_16 : after (exec (.impdef 0 (wr 1)) (idle cfgA)) (fun t => t.impdef == []) = true := by
  decide

/-- The state of V45.2: three counters and a flag. -/
def snap (rp : DWord) : State :=
  { idle cfgC with x := [(0, 0x100000005), (1, 9), (31, 0x1000)], ovs := 2, pmssrr := rp }

set_option maxRecDepth 8000 in
theorem test_pmsscr_captures_V45_2 : after (exec (.pmsscr (wr 1)) (snap 0))
    (fun t => t.svr == [(0, 5), (1, 1), (2, 9), (4, 0x1000), (6, 2)] && t.x == (snap 0).x) = true := by decide
set_option maxRecDepth 8000 in
theorem test_pmsscr_resets_V45_5 : after (exec (.pmsscr (wr 1)) (snap 3))
    (fun t => t.svrAt 6 == 2 && t.x == [(31, 0x1000)] && t.ovs == 0) = true := by decide
theorem test_pmssrr_V45_8 : after (exec (.pmssrrLo (wrw 0xFFFFFFFFFFFFFFFF)) (idle cfgC))
    (fun t => t.readSsrr == 0x80000003) = true := by decide
theorem test_pmssrrHi_V45_9 : after (exec (.pmssrrHi (wr 0xFFFFFFFF)) (snap 3))
    (fun t => t.readSsrr == 3) = true := by decide
theorem test_pmsssr_after_reset_V45_1 : answers (exec (.pmsssr rd) State.reset) 1 = true := by decide
theorem test_pmovssr_V45_6 : answers (exec (.pmovssr 0 rd1) { idle cfgC with svr := [(6, 2)], ovs := 3 }) 2 = true := by
  decide
theorem test_pmsvr_V45_11 : answers (exec (.pmsvr 8 rd1) { idle cfgC with svr := [(8, 2)] }) 0 = true
    ∧ answers (exec (.pmsvr 0 rd1) { idle cfgC with svr := [(0, 5)] }) 5 = true := by decide
theorem test_pmsvr_ignores_V45_10 : after (exec (.pmsvr 0 (wr 0xFFFFFFFF)) { idle cfgC with svr := [(0, 5)] })
    (fun t => t.svrAt 0 == 5) = true := by decide

theorem test_pmirqcr0_V46_1 : after (exec (.pmirqcr0Lo (wrw 0xFFFFFFFFFFFFFFFF)) (idle cfgC))
    (fun t => t.readIrqcr0 == 0x000000FFFFFFFFFC) = true := by decide
theorem test_pmirqcr0Hi_V46_2 : after (exec (.pmirqcr0Hi (wr 0x12)) { idle cfgC with irqcr0 := 0xFFFFFFFFFC })
    (fun t => t.readIrqcr0 == 0x12FFFFFFFC) = true := by decide
theorem test_pmirqcr0_guard_V46_8 :
    after (exec (.pmirqcr0Lo (wrNs 0x1000)) { idle cfgC with irqcr0 := 0x08010040 })
      (fun t => t.readIrqcr0 == 0x08010040) = true
    ∧ after (exec (.pmirqcr0Lo (wrNs 0x1000))
        { idle { cfgC with msiAddrNsGuard := false } with irqcr0 := 0x08010040 })
      (fun t => t.readIrqcr0 == 0x1000) = true := by decide
theorem test_pmirqcr1_V46_3 : after (exec (.pmirqcr1 (wr 0xDEADBEEF)) (idle cfgC))
    (fun t => t.irqcr1 == 0xDEADBEEF) = true := by decide
theorem test_pmirqcr1_locked_V46_6 : after (exec (.pmirqcr1 (wrNs 0x99)) { idle cfgC with irqcr1 := 0x2A })
    (fun t => t.irqcr1 == 0x2A) = true := by decide
theorem test_pmirqcr2_V46_4 : after (exec (.pmirqcr2 (wr 0xFFFFFFFF)) (idle cfgC))
    (fun t => t.readIrqcr2 == 0xFF) = true := by decide
theorem test_pmirqcr2_ns_V46_9 : after (exec (.pmirqcr2 (wrNs 0x8F)) { idle cfgC with irqcr2 := ⟨false, true, 3, 0⟩ })
    (fun t => t.readIrqcr2 == 0xCF) = true := by decide
theorem test_pmirqsr_V46_11 : after (exec (.pmirqsrLo (wr 1)) { idle cfgC with irqErr := true }) (fun t => t.irqErr) = true
    ∧ after (exec (.pmirqsrLo (wr 2)) { idle cfgC with irqErr := true }) (fun t => !t.irqErr) = true := by decide
theorem test_pmirqsrHi_V46_12 : answers (exec (.pmirqsrHi rd) { idle cfgC with irqErr := true, msiBusy := true }) 0
    = true := by decide

theorem test_pmcidr_V47_1 : answers (exec (.pmcidr0 rd) (idle cfgA)) 0x0D = true
    ∧ answers (exec (.pmcidr1 rd) (idle cfgA)) 0x90 = true ∧ answers (exec (.pmcidr2 rd) (idle cfgA)) 0x05 = true
    ∧ answers (exec (.pmcidr3 rd) (idle cfgA)) 0xB1 = true := by decide
theorem test_pmpidr_V47_5 : answers (exec (.pmpidr0 rd) (idle cfgA)) 0xAB = true
    ∧ answers (exec (.pmpidr1 rd) (idle cfgA)) 0xB9 = true ∧ answers (exec (.pmpidr2 rd) (idle cfgA)) 0x2B = true
    ∧ answers (exec (.pmpidr3 rd) (idle cfgA)) 0x10 = true ∧ answers (exec (.pmpidr4 rd) (idle cfgA)) 0x04 = true
    ∧ answers (exec (.pmpidr5 rd) (idle cfgA)) 0 = true ∧ answers (exec (.pmpidr6 rd) (idle cfgA)) 0 = true
    ∧ answers (exec (.pmpidr7 rd) (idle cfgA)) 0 = true := by decide
theorem test_pmiidr_V47_5 : answers (exec (.pmiidr rd) (idle cfgA)) 0x9AB2143B = true
    ∧ answers (exec (.pmiidr rd) (idle { cfgA with hasIIDR := false })) 0 = true := by decide
theorem test_pmdevtype_V47_3 : answers (exec (.pmdevtype rd) (idle cfgA)) 0x16 = true := by decide
theorem test_pmdevarch_V47_4 : answers (exec (.pmdevarch rd) (idle cfgC)) 0x47701123 = true
    ∧ answers (exec (.pmdevarch rd1) (idle cfgC)) 0x47701124 = true := by decide
theorem test_pmdevid_reads : answers (exec (.pmdevid rd) (idle cfgA)) 0x12345678 = true := by decide
theorem test_pmauthstatus_V47_7 :
    answers (exec (.pmauthstatus rd) { idle cfgA with env := ⟨.enabled, .enabled, [], true, []⟩ }) 0xCC = true := by decide
theorem test_pmauthstatus_V47_8 : answers (exec (.pmauthstatus rd)
    { idle { cfgA with secExt := false } with env := ⟨.enabled, .disabled, [], true, []⟩ }) 8 = true := by decide
theorem test_pmdevaff_V47_10 : answers64 (exec (.pmdevaffLo rdw) State.reset) 0x80000103 = true := by decide
theorem test_pmdevaffHi_aff3 : answers (exec (.pmdevaffHi rd) (idle { cfgA with
      hasAffinity := true, aff := ⟨.exact, 0, 0, 2, 0, 1, 3, false, false⟩ })) 2 = true := by decide
/-- V47.9: Aff1 = 0x2D at level 1 with k = 2 is encoded 0x2C. -/
theorem test_affinity_fields_V47_9 :
    (AffCfg.fields ⟨.subset, 1, 2, 0, 1, 0x2D, 0, false, false⟩) = (0, 1, 0x2C, 0, false) := by decide

/-! ### One step of each of the other agents -/

theorem test_count_wraps_V40_8 : ((busy cfgA 1).putX 0 0xFFFFFFFF).count 0 (ev 0)
    = { busy cfgA 1 with ovs := 1 } := by decide
/-- `Cfg.incr` may give every occurrence the amount 2 (R147). -/
theorem test_count_by_two : (((busy { cfgA with mons := [{ ctr 0 32 with incrElse := 2 }, cyc 32] } 1).putX 0 5).count 0 (ev 0)).xAt 0
    = 7 := by decide
theorem test_count_disabled_V40_4 : ((busy cfgA 0).putX 0 0x10).count 0 (ev 0) = (busy cfgA 0).putX 0 0x10 := by decide
theorem test_count_prohibited_V40_6 :
    ((busy cfgA 1).putX 0 0x10).count 0 ⟨0, some .secure, false, false⟩ = (busy cfgA 1).putX 0 0x10 := by decide
theorem test_count_unselected_V40_7 : (((busy cfgA 1).putTyper 0 0x11).count 0 (ev 0x12)).xAt 0 = 0 := by decide
theorem test_count_debug_V41_11 :
    (({ busy cfgD 4 with pmcr := ⟨true, false, false, false, false, true, false⟩ }).count 2 ⟨0, none, true, false⟩).xAt 2 = 0
    ∧ ((busy cfgD 4).count 2 ⟨0, none, true, false⟩).xAt 2 = 1 := by decide

/-- V40.13: CfgA whose monitor 2 is not a counter. -/
def cfgA2 : Cfg := { cfgA with mons := [ctr 0 32, ctr 1 32, { ctr 2 32 with isCounter := false }, ctr 3 32, cyc 32] }

theorem test_monitorUpdate_V40_14 : (((busy cfgA2 4).monitorUpdate 2 0x20 true (ev 0)).xAt 2 = 0x20)
    ∧ ((busy cfgA2 4).monitorUpdate 2 0x20 true (ev 0)).ovs = 4 := by decide
/-- V40.15; and a change PMEVTYPER<2> does not select (R154). -/
theorem test_monitorUpdate_V40_15 : (idle cfgA2).monitorUpdate 2 6 false (ev 0) = idle cfgA2
    ∧ ((busy cfgA2 4).putTyper 2 0x11).monitorUpdate 2 6 false (ev 0) = (busy cfgA2 4).putTyper 2 0x11 := by decide
theorem test_settle_V40_11 : ({ idle cfgA with pmcr := (busy cfgA 0).pmcr }).settle.st = .run := by decide

/-- The start of V41.20: CfgB in RUN, counter 1 configured to count the CHAIN event. -/
def chained (c : Cfg) (x1 : DWord) : State :=
  { busy c 3 with typer := [(0, 0x11), (1, 0xC4)], x := [(0, 0xFFFF), (1, x1)] }

theorem test_chain_atomic_V41_20 : ((chained cfgB 2).count 0 (ev 0x11)).x = [(1, 3)]
    ∧ ((chained cfgB 2).count 0 (ev 0x11)).ovs = 1 := by decide
theorem test_chain_wraps_V41_22 : ((chained cfgB 0xFFFF).count 0 (ev 0x11)).x = []
    ∧ ((chained cfgB 0xFFFF).count 0 (ev 0x11)).ovs = 3 := by decide
theorem test_chain_split_V41_25 : ((chained { cfgB with chainAtomic := false } 2).count 0 (ev 0x11)).x = [(0, 0xFFFF), (1, 3)]
    ∧ ((chained { cfgB with chainAtomic := false } 2).count 0 (ev 0x11)).lowPend = [(0, 1)] := by decide
/-- A write stored at once while a chained update is held back: the update and its flag go first (R204, R241,
assumption log 30). -/
theorem test_stored_write_ends_held_update :
    (({ idle cfgB with lowPend := [(0, 1)] }).writeMonitorReg (.cntr 0) 7).x = [(0, 7)]
    ∧ (({ idle cfgB with lowPend := [(0, 1)] }).writeMonitorReg (.cntr 0) 7).ovs = 1
    ∧ (({ idle cfgB with lowPend := [(0, 1)] }).writeMonitorReg (.cntr 0) 7).lowPend = [] := by decide
/-- In a STOP that has not settled a write waits without `Cfg.NA` (V42.17) and is stored with it (R242 row 2,
R466 item 6). -/
theorem test_write_in_unsettled_stop :
    (({ idle cfgA with st := .run }).writeMonitorReg (.cntr 0) 7).pend = [⟨.cntr 0, 7⟩]
    ∧ (({ idle cfgA with st := .run }).writeMonitorReg (.cntr 0) 7).x = []
    ∧ (({ idle cfgD with st := .run }).writeMonitorReg (.cntr 0) 7).pend = []
    ∧ (({ idle cfgD with st := .run }).writeMonitorReg (.cntr 0) 7).x = [(0, 7)] := by decide
theorem test_chainLo_V41_25 : (({ chained cfgB 3 with lowPend := [(0, 1)] }).chainLo 0).x = [(1, 3)]
    ∧ (({ chained cfgB 3 with lowPend := [(0, 1)] }).chainLo 0).ovs = 1 := by decide
/-- V41.28, V41.29: the CHAIN occurrence of the overflow that freezes the PMU. -/
theorem test_chain_on_freeze_V41_28 :
    (({ chained { cfgB with fzoIgnoresChainedLow := false } 2 with
        pmcr := ⟨true, false, false, false, true, false, false⟩ }).count 0 (ev 0x11)).xAt 1 = 3
    ∧ (({ chained { cfgB with fzoIgnoresChainedLow := false, chainOnFreeze := .dropped } 2 with
        pmcr := ⟨true, false, false, false, true, false, false⟩ }).count 0 (ev 0x11)).xAt 1 = 2 := by decide

theorem test_cycle_V41_13 : (((busy cfgA 0x80000000).putX 31 7).cycle (ev 0)).xAt 31 = 8 := by decide
theorem test_cycle_prescaled_V41_15 :
    (({ busy cfgA 0x80000000 with pmcr := ⟨true, true, false, false, false, false, false⟩, presc := 62 }).cycle (ev 0)).presc = 63
    ∧ (({ busy cfgA 0x80000000 with pmcr := ⟨true, true, false, false, false, false, false⟩, presc := 63 }).cycle (ev 0)).x
      = [(31, 1)] := by decide
theorem test_cycle_second_V41_17 :
    (({ busy cfgA 0x80000000 with pmcr := ⟨true, false, false, true, false, false, false⟩ }).cycle ⟨0, none, false, true⟩).x
      = [] := by decide
theorem test_takeEffect_V42_11 : (({ busy cfgA 1 with pend := [⟨.cntr 0, 0x100⟩], x := [(0, 0x11)] }).takeEffect (.cntr 0)).x
    = [(0, 0x100)] := by decide

/-- The start of V46.13: the message programmed, one overflow with its interrupt enabled. -/
def msi : State :=
  { busy cfgC 0 with
    inten := 1, ovs := 1, irqcr0 := 0x08010040, irqcr1 := 0x2A, irqcr2 := ⟨true, false, 0, 0xF⟩ }

theorem test_msiStart_V46_13 : msi.msiStart.sent = [⟨0x08010040, 0x2A, false, 0, 0xF⟩]
    ∧ msi.msiStart.flight = some ⟨0x08010040, 0x2A, false, 0, 0xF⟩ := by decide
theorem test_msiArrive_V46_13 : msi.msiStart.msiArrive.memS = [(0x08010040, 0x2A)]
    ∧ (msi.msiStart.msiDone false).memS = [(0x08010040, 0x2A)] ∧ (msi.msiStart.msiDone false).msiBusy = false := by decide
/-- R461: a write that a reset abandons may reach its target or be lost. -/
theorem test_stray_R461 : (({ msi with strays := [⟨0x40, 0x1234, true, 0, 0⟩] }).strayEnd 0 true).memNS = [(0x40, 0x34), (0x41, 0x12)]
    ∧ ({ msi with strays := [⟨0x40, 0x1234, true, 0, 0⟩] }).strayEnd 0 false = msi := by decide
theorem test_msiStart_once_V46_14 : ({ msi with irqPrev := true }).msiStart = { msi with irqPrev := true } := by decide
theorem test_msiDone_V46_15 : ({ msi with msiBusy := true }).msiDone true = { msi with irqErr := true } := by decide
theorem test_rearm_V46_15 : ({ msi with ovs := 0, irqPrev := true }).rearm.irqPrev = false := by decide
theorem test_reset_V70_5 : ({ msi with msiBusy := true, pend := [⟨.cntr 0, 1⟩] }).resetStep.pend = []
    ∧ ({ msi with msiBusy := true, pend := [⟨.cntr 0, 1⟩] }).resetStep.msiBusy = false := ⟨rfl, rfl⟩
theorem test_irqCond_V60_2 : ({ busy cfgA 0 with ovs := 1, inten := 2 }).irqCond = false
    ∧ ({ idle cfgA with ovs := 1, inten := 1 }).irqCond = false
    ∧ ({ busy cfgA 0 with ovs := 0x80000000, inten := 0x80000000 }).irqCond = true := by decide
/-- R89: a gate on the offset 0xE3C, on writes of one value, and one that holds while lock 1 is on. -/
def gateCfg : Cfg :=
  { cfgC with gate := [⟨none, 0xE3C, 0xE3C, none, none, none, 0, 0, []⟩,
    ⟨some false, 0xE04, 0xE07, some true, some true, some false, 0xFF, 1, [(.lock 1, true)]⟩] }
theorem test_gate_R89 : (idle gateCfg).gated ⟨0xE38, rdw⟩ = true ∧ (idle gateCfg).gated ⟨0xE38, rd⟩ = false
    ∧ ({ idle gateCfg with env := ⟨.disabled, .enabled, [], true, [1]⟩ }).gated ⟨0xE04, wrNs 1⟩ = true
    ∧ ({ idle gateCfg with env := ⟨.disabled, .enabled, [], true, [1]⟩ }).gated ⟨0xE04, wrNs 2⟩ = false
    ∧ ({ idle gateCfg with env := ⟨.disabled, .enabled, [], true, [1]⟩ }).gated ⟨0xE04, wr 1⟩ = false
    ∧ (idle gateCfg).gated ⟨0xE04, wrNs 1⟩ = false := by decide
/-- The first step after reset performs the access that `withFetchWord` puts there: a read of PMCR answers 0. -/
theorem test_step_reads_pmcr : answers (step (State.reset.withFetchWord 16 0xE04)) 0 = true := by decide

/-! ### Witnesses: states and operands that meet the hypotheses of the statements -/

/-- A non-atomic variant of CfgC. -/
def cfgN : Cfg := { cfgC with atomic64 := false }

theorem witness_DecodeReturnsEncodedInstruction : (Instr.pmevcntrLo 127 rdw).wf Config.reference = true
    ∧ (Instr.pmcidr3 (wrNs 0)).wf cfgA = true := by decide
theorem witness_EncodeReturnsDecodedFrame : cfgC.wf = true
    ∧ decode cfgC (tableFrame 24 0x0103FC) = .ok (.instr (.pmevcntrHi 127 rd1)) := by decide
theorem witness_StepRunsDecodedInstruction :
    let s := State.reset.withFetchWord 16 0xE04
    s.cfg.wf = true ∧ s.inputs = .access (tableFrame 16 0xE04) :: []
      ∧ decode s.cfg (tableFrame 16 0xE04) = .ok (.instr (.pmcr rd))
      ∧ ∀ r, parseFrame (tableFrame 16 0xE04) = .ok r → s.gated r = false :=
  ⟨test_reference_wf, rfl, by decide, fun _ _ => rfl⟩
theorem witness_UnsupportedAndGatedAccessesRefused :
    let s := State.reset.withFetchWord 16 0xE05
    (s.cfg.wf = true ∧ s.inputs = .access (tableFrame 16 0xE05) :: []
      ∧ decode s.cfg (tableFrame 16 0xE05) = .error .misaligned
      ∧ ∀ r, parseFrame (tableFrame 16 0xE05) = .ok r → s.gated r = false)
    ∧ ((0x08 : Byte).getLsbD 3 = true ∧ (0x05 : Byte).getLsbD 0 = true ∧ (0x06 : Byte).getLsbD 1 = true)
    ∧ ((Instr.pmcfgr rdw).access.op.is64 = true ∧ (Instr.pmcfgr rdw).supports64 cfgA = false)
    ∧ (let g := { idle gateCfg with inputs := [.access (tableFrame 24 0x040E38)] }
      g.cfg.wf = true ∧ g.inputs = .access (tableFrame 24 0x040E38) :: []
        ∧ parseFrame (tableFrame 24 0x040E38) = .ok ⟨0xE38, rdw⟩ ∧ g.gated ⟨0xE38, rdw⟩ = true) :=
  ⟨⟨test_reference_wf, rfl, by decide, fun _ _ => rfl⟩, by decide, by decide, test_cfgC_wf, rfl, by decide, by decide⟩
theorem witness_ReservedLocationsReadZero :
    let s := State.reset.withFetchWord 16 0xCA0
    (s.cfg.wf = true ∧ s.inputs = .access (tableFrame 16 0xCA0) :: []
      ∧ decode s.cfg (tableFrame 16 0xCA0) = .ok (.reserved rd)
      ∧ ∀ r, parseFrame (tableFrame 16 0xCA0) = .ok r → s.gated r = false)
    ∧ (∀ off ∈ [0x700, 0x7FF, 0x800, 0x9FF, 0xCA0, 0xCBF, 0xCF0, 0xD7F, 0xE0C, 0xE1F, 0xE34, 0xE40, 0xE7F, 0xE90,
        0xEF7, 0xF00, 0xFA7, 0xFB0, 0xFB7, 0xFC0, 0xFC7], rowOf cfgC off = none)
    ∧ cfgC.ss = true ∧ cfgC.dual = true ∧ rd1.op.is64 = false ∧ rd1.page = .p1 ∧ rd.page = .p0 :=
  ⟨⟨test_reference_wf, rfl, by decide, fun _ _ => rfl⟩, by decide⟩
/-- The first and the last location of each range that only the other page has, from R117 and R118. -/
theorem test_other_page_reserved :
    (∀ off ∈ [0x000, 0x3FC, 0x600, 0x6FC, 0xC80, 0xC9C, 0xCC0, 0xCDC],
      decodeRaw cfgC ⟨off, rd⟩ = .ok (.reserved rd))
    ∧ (∀ off ∈ [0x400, 0x5FC, 0xA00, 0xC7C, 0xCE0, 0xCEC, 0xE04, 0xE20, 0xEFC, 0xFB8],
      decodeRaw cfgC ⟨off, rd1⟩ = .ok (.reserved rd1))
    ∧ (∀ off ∈ [0x600, 0x7FC], decodeRaw { cfgC with ss := false } ⟨off, rd1⟩ = .ok (.reserved rd1)) := by decide
/-- The locations beside the holes are registers. -/
theorem test_beside_the_holes : ∀ off ∈ [0x7FC, 0xA00, 0xC9C, 0xCC0, 0xCEC, 0xD80, 0xE08, 0xE20, 0xE30, 0xE38, 0xE3C, 0xE80,
    0xE8C, 0xEF8, 0xEFC, 0xFA8, 0xFAC, 0xFB8, 0xFBC, 0xFC8], (rowOf cfgA off).isSome = true := by decide
theorem witness_ReadsAnswerAndChangeNothing : (Instr.pmsscr rd).access.op = .rd32 := by decide
theorem witness_AccessesCompleteAndLeaveMemory : (Instr.pmirqcr0Lo (wrw 0)).access.op.is64 = true
    ∧ (Instr.pmirqcr0Lo (wrw 0)).supports64 (idle cfgC).cfg = true ∧ (Instr.pmcr rd).access.op.is64 = false := by decide
theorem witness_ReadOnlyRegistersIgnoreWrites : (Instr.pmdevid (wr 7)).isReadOnly = true
    ∧ (Instr.pmdevid (wr 7)).access.op = .wr32 7 ∧ (Instr.pmdevaffLo (wrw 7)).isReadOnly = true
    ∧ (Instr.pmdevaffLo (wrw 7)).access.op = .wr64 7 ∧ (Instr.pmdevaffLo (wrw 7)).supports64 cfgC = true
    ∧ cfgC.atomic64 = true ∧ (Instr.pmsvr 2 (wrw 7)).isReadOnly = true
    ∧ (Instr.pmsvr 2 (wrw 7)).supports64 Config.reference = true := by decide
/-- An atomic 64-bit write of a pair of saved values changes nothing. -/
theorem test_pmsvr_pair_ignores : after (exec (.pmsvr 2 (wrw 7)) State.reset) (fun t => t.svr == State.reset.svr) = true := by
  decide
theorem witness_WideReadIsBothHalves : (Instr.pmcntenset 6 rdw).supports64 (idle cfgC).cfg = true
    ∧ (idle cfgC).cfg.atomic64 = true ∧ (Instr.pmcntenset 6 rdw).access.op = .rd64 := by decide
theorem witness_SplitReadJoinsHalves : (Instr.pmevcntrLo 0 rdw).supports64 (idle cfgN).cfg = true
    ∧ (idle cfgN).cfg.atomic64 = false ∧ (Instr.pmevcntrLo 0 rdw).access.op = .rd64 := by decide
theorem witness_SplitWriteIsTwoWrites : (Instr.pmssrrLo (wrw 3)).supports64 (idle cfgN).cfg = true
    ∧ (idle cfgN).cfg.atomic64 = false ∧ (Instr.pmssrrLo (wrw 3)).access.op = .wr64 3 := by decide

theorem witness_MonitorReadsReturnNewestValue :
    ({ busy cfgA 1 with pend := [⟨.cntr 0, 1⟩, ⟨.cntr 0, 2⟩, ⟨.cntr 1, 3⟩] }).pend
        = [⟨.cntr 0, 1⟩] ++ (⟨.cntr 0, 2⟩ : PendEntry) :: [⟨.cntr 1, 3⟩]
    ∧ (∀ p ∈ [(⟨.cntr 1, 3⟩ : PendEntry)], p.reg ≠ .cntr 0)
    ∧ (∀ p ∈ [(⟨.cntr 1, 3⟩ : PendEntry)], p.reg ≠ .typer 1) := by decide
theorem witness_MonitorRegisterReads : (idle cfgA).cfg.wide = false ∧ (idle cfgC).cfg.wide = true := by decide
theorem witness_StoppedCounterWriteStores :
    ((idle cfgA).cfg.impl 31 = true ∧ (idle cfgA).cfg.cntrWritable 31 = true ∧ (idle cfgA).stopped
      ∧ (idle cfgA).cfg.wide = false)
    ∧ ((idle cfgC).cfg.impl 0 = true ∧ (idle cfgC).cfg.cntrWritable 0 = true ∧ (idle cfgC).stopped
      ∧ (idle cfgC).cfg.wide = true ∧ (idle cfgC).cfg.atomic64 = true)
    ∧ ({ idle cfgD with st := .run }).stopped :=
  ⟨⟨by decide, by decide, ⟨by decide, by decide⟩, by decide⟩,
    ⟨by decide, by decide, ⟨by decide, by decide⟩, by decide, by decide⟩, ⟨by decide, by decide⟩⟩
theorem witness_StoppedConfigWriteStores :
    State.reset.cfg.mon 32 = some (Config.refCounter 32 48) ∧ State.reset.stopped
      ∧ (Config.refCounter 32 48).hasTyper = true ∧ (Config.refCounter 32 48).typerWritable = true
      ∧ (Config.refCounter 32 48).hasFiltr = true ∧ (Config.refCounter 32 48).filtrWritable = true :=
  ⟨by decide, ⟨by decide, by decide⟩, rfl, rfl, rfl, rfl⟩
/-- In RUN in both layouts, and in a STOP that has not settled. -/
theorem witness_RunningWritePends :
    (busy cfgA 1).defers ∧ (busy cfgC 1).defers ∧ ({ idle cfgA with st := .run }).defers
      ∧ (busy cfgA 1).cfg.impl 0 = true ∧ (busy cfgA 1).cfg.cntrWritable 0 = true ∧ (busy cfgA 1).cfg.wide = false
      ∧ (busy cfgC 1).cfg.impl 31 = true ∧ (busy cfgC 1).cfg.cntrWritable 31 = true ∧ (busy cfgC 1).cfg.wide = true
      ∧ (busy cfgC 1).cfg.atomic64 = true ∧ (busy cfgA 1).cfg.typerWritable 3 = true
      ∧ Config.reference.filtrWritable 33 = true :=
  ⟨⟨by decide, fun h => absurd h.1 (by decide)⟩, ⟨by decide, fun h => absurd h.1 (by decide)⟩,
    ⟨by decide, fun h => absurd h.2 (by decide)⟩, by decide, by decide, by decide, by decide, by decide, by decide,
    by decide, by decide, by decide⟩
theorem witness_IgnoredMonitorWrites :
    (busy cfgD 1).ignores (.cntr 0) ∧ (busy cfgD 1).ignores (.typer 0) ∧ (idle cfgA).ignores (.filtr 0)
      ∧ (idle cfgA).cfg.impl 4 = false ∧ (idle cfgA).cfg.hasTyper 4 = false ∧ (idle cfgA).cfg.hasFiltr 0 = false
      ∧ (busy cfgD 1).cfg.atomic64 = true :=
  ⟨.inr ⟨by decide, by decide⟩, .inr ⟨by decide, by decide⟩, .inl (by decide), by decide, by decide, by decide, by decide⟩
theorem witness_CycleCounterIsMonitor31 : (idle cfgA).cfg.cc = true ∧ (idle cfgB).cfg.cc = false
    ∧ rd.op.is64 = false ∧ rdw.op.is64 = true ∧ (idle cfgC).cfg.atomic64 = true ∧ rd.op = .rd32
    ∧ (wr 5).op = .wr32 5 := by decide
theorem witness_PendingCounterWriteIsNotLost :
    newest (.cntr 0) ({ busy cfgA 1 with pend := [⟨.cntr 0, 7⟩] }).pend = some 7
      ∧ (Input.takeEffect (.cntr 0)).isCore = true
      ∧ ∃ t, ({ busy cfgA 1 with pend := [⟨.cntr 0, 7⟩] }).take (.takeEffect (.cntr 0)) = .next t :=
  ⟨by decide, rfl, _, rfl⟩
theorem witness_TakeEffectCommitsOldestWrite :
    ({ busy cfgA 1 with pend := [⟨.cntr 1, 1⟩, ⟨.cntr 0, 2⟩, ⟨.cntr 0, 3⟩] }).pend
        = [⟨.cntr 1, 1⟩] ++ (⟨.cntr 0, 2⟩ : PendEntry) :: [⟨.cntr 0, 3⟩]
    ∧ (∀ p ∈ [(⟨.cntr 1, 1⟩ : PendEntry)], p.reg ≠ .cntr 0 ∧ p.reg ≠ .typer 0 ∧ p.reg ≠ .filtr 0)
    ∧ (busy cfgA 1).cfg.isCycle 0 = false ∧ (busy cfgA 1).cfg.isCycle 31 = true ∧ cfgA.ccd = true
    ∧ ({ chained cfgB 3 with lowPend := [(0, 1)] }).lowAt 0 ≠ 0 := by decide

theorem witness_SetAndClearRegistersActOnTheirBits : (0 : Nat) < 8 ∧ (7 : Nat) < 8 := by decide
theorem witness_WidePairWriteIsBothWrites : 6 % 2 = 0 ∧ (idle cfgC).cfg.pair64 = true
    ∧ (idle cfgC).cfg.atomic64 = true ∧ (wrw 5).op = .wr64 5 := by decide
theorem witness_PmcrReadShowsBits : PmcrInv (idle cfgA).cfg (idle cfgA).pmcr ∧ cfgA.ex = false ∧ cfgB.cc = false
    ∧ cfgC.fzo = false ∧ cfgA.hdbg = false ∧ cfgA.tro = false ∧ (cfgC.cc && cfgC.ccd) = false :=
  ⟨⟨fun h => absurd h (by decide), fun h => absurd h (by decide), fun h => absurd h (by decide),
    fun h => absurd h (by decide), fun h => absurd h (by decide), fun h => absurd h (by decide)⟩, by decide⟩
theorem witness_PmcfgrReadShowsConfiguration : (idle cfgC).cfg.wf = true := test_cfgC_wf
theorem witness_GroupAndEventReads : State.reset.cfg.wf = true ∧ (3 : Nat) < 4 ∧ 1 < State.reset.cfg.ngrp
    ∧ (idle cfgA).cfg.wf = true ∧ (idle cfgA).cfg.ngrp ≤ 1 := ⟨test_reference_wf, by decide, by decide, test_cfgA_wf, by decide⟩
theorem witness_ImpdefReadsBackUnderItsMask :
    State.reset.cfg.impdefAt 0 = some ⟨0, true, true, 0xFFFFFFFF, 0, false⟩ ∧ State.reset.cfg.impdefAt 31 = none := by
  decide

theorem witness_CaptureSavesValuesAndResets : (snap 3).cfg.ss = true ∧ (snap 3).env.captureAllowed = true
    ∧ (1 : Word).getLsbD 0 = true ∧ State.reset.cfg.ss = true ∧ State.reset.env.captureAllowed = true
    ∧ State.reset.cfg.hasSnapReqSignal = true := by decide
theorem witness_RefusedAndAbsentCaptures :
    (snap 3).cfg.ss = true ∧ ({ snap 3 with env := { (snap 3).env with captureAllowed := false } }).env.captureAllowed = false
      ∧ (1 : Word).getLsbD 0 = true ∧ (idle cfgA).cfg.ss = false ∧ (0xFFFFFFFE : Word).getLsbD 0 = false
      ∧ (snap 3).cfg.hasSnapReqSignal = false
      ∧ (State.reset.cfg.ss = true ∧ State.reset.cfg.hasSnapReqSignal = true
        ∧ ({ State.reset with env := { State.reset.env with captureAllowed := false } }).env.captureAllowed = false)
      ∧ (idle { cfgA with hasSnapReqSignal := true }).cfg.ss = false := by decide
theorem witness_SnapshotPersists : (∀ a, Instr.pmcr rd ≠ .pmsscr a)
    ∧ (∃ t, exec (.pmcr rd) (snap 3) = .next t)
    ∧ (Input.settle.isCore = true ∧ Input.settle ≠ .snapReq ∧ ∃ t, (snap 3).take .settle = .next t) :=
  ⟨fun _ h => (nomatch h), ⟨_, rfl⟩, rfl, by decide, _, rfl⟩
theorem witness_PmssrrStoresImplementedBits : (snap 3).cfg.ssrr = true ∧ (snap 3).cfg.atomic64 = true
    ∧ (idle cfgA).cfg.ssrr = false ∧ (idle cfgA).cfg.atomic64 = true := by decide
theorem witness_SavedValueReads : (snap 3).cfg.wf = true ∧ (snap 3).cfg.ss = true ∧ (snap 3).cfg.svrSlot 6 = .ovs 0
    ∧ (snap 3).cfg.svrSlot 63 = .unused ∧ (idle cfgA).cfg.wf = true ∧ (idle cfgA).cfg.ss = false :=
  ⟨test_cfgC_wf, by decide, by decide, by decide, test_cfgA_wf, by decide⟩

theorem witness_Pmirqcr0StoresTheAddress : msi.cfg.msi = true ∧ msi.addrBlocked false = false
    ∧ msi.addrBlocked true = true ∧ msi.cfg.atomic64 = true := by decide
theorem witness_Pmirqcr1AndPmirqsr : msi.cfg.msi = true ∧ msi.nsBlocked false = false ∧ msi.cfg.atomic64 = true := by
  decide
theorem witness_Pmirqcr2Fields : msi.cfg.msi = true
    ∧ ({ msi with irqcr2 := ⟨true, true, 0, 0⟩ }).nsBlocked true = false ∧ msi.nsBlocked false = false := by decide
theorem witness_NonSecureAccessesCannotTakeTheMessage : msi.nsLocked = true ∧ msi.cfg.msiAddrNsGuard = true
    ∧ msi.cfg.atomic64 = true ∧ (Instr.pmirqcr2 (wrNs 0x40)).access.ns = true
    ∧ after (exec (.pmirqcr2 (wrNs 0x40)) msi) (fun _ => true) = true := by decide
theorem witness_AbsentMessageBlock : (idle cfgA).cfg.msi = false ∧ rd.op = .rd32 ∧ (wr 1).op = .wr32 1 := by decide
theorem witness_MsiStartIssuesTheMessage :
    (msi.cfg.msi = true ∧ msi.msiEnabled = true ∧ msi.irqCond = true ∧ msi.irqPrev = false ∧ msi.msiBusy = false
      ∧ msi.irqcr2.sh ≠ 1 ∧ msi.irqcr2.memAttr ≠ 4 ∧ msi.irqcr2.memAttr ≠ 8 ∧ msi.irqcr2.memAttr ≠ 12
      ∧ msi.cfg.msiShCfg = true ∧ msi.cfg.msiAttrCfg = true ∧ msi.cfg.msiNsCfg = true)
    ∧ ({ msi with irqcr2 := ⟨true, true, 1, 4⟩ }).msiNS = true
    ∧ ({ msi with irqcr2 := ⟨false, false, 0, 0⟩ }).msiEnabled = false ∧ ({ msi with ovs := 0 }).irqCond = false
    ∧ (idle cfgA).cfg.msi = false ∧ ({ msi with irqPrev := true }).irqPrev = true
    ∧ ({ msi with msiBusy := true }).msiBusy = true := by decide
theorem witness_OnlyArrivingMessagesWriteMemory :
    (Input.settle ≠ .msiStart ∧ Input.settle ≠ .msiArrive ∧ (∀ err, Input.settle ≠ .msiDone err)
      ∧ (∀ k reaches, Input.settle ≠ .strayEnd k reaches) ∧ ∃ t, msi.take .settle = .next t)
    ∧ (Input.msiArrive ≠ .msiStart ∧ ∃ t, msi.msiStart.take .msiArrive = .next t)
    ∧ msi.msiStart.flight = some ⟨0x08010040, 0x2A, false, 0, 0xF⟩ ∧ msi.flight = none
    ∧ ({ msi with strays := [⟨0x40, 0x1234, true, 0, 0⟩] }).strays[0]? = some ⟨0x40, 0x1234, true, 0, 0⟩
    ∧ msi.strays.length ≤ 0 :=
  ⟨⟨by decide, by decide, fun _ h => (nomatch h), fun _ _ h => (nomatch h), _, rfl⟩, ⟨by decide, _, rfl⟩, by decide, rfl,
    rfl, by decide⟩
theorem witness_OneMessagePerRise : after (step { msi with inputs := [.msiStart] }) (fun t => t.irqPrev) = true
    ∧ after (step { msi with irqPrev := true, inputs := [.msiStart] }) (fun t => t.irqPrev) = true := by decide
theorem witness_MsiDoneEndsTheWrite : ({ msi with msiBusy := true }).msiBusy = true ∧ msi.msiBusy = false
    ∧ ({ msi with msiBusy := true }).flight = none ∧ msi.msiStart.msiBusy = true
    ∧ msi.msiStart.flight = some ⟨0x08010040, 0x2A, false, 0, 0xF⟩ := by decide

theorem witness_CountAddsAndFlags :
    let s := (busy cfgA 1).putX 0 0xFFFFFFFF
    (s.cfg.isCounter 0 = true ∧ s.cfg.isCycle 0 = false ∧ s.counts 0 (ev 0) = true ∧ s.lowAt 0 = 0
      ∧ s.chained 0 = false)
    ∧ (let u := (chained cfgB 2).putX 0 5
      u.chained 0 = true ∧ u.counts 0 (ev 0x11) = true ∧ u.lowAt 0 = 0
        ∧ (u.xAt 0).toNat + u.cfg.incr 0 (ev 0x11) < 2 ^ u.cfg.width 0)
    ∧ (let v := { chained { cfgB with chainAtomic := false } 3 with lowPend := [(0, 1)] }
      v.cfg.isCounter 0 = true ∧ v.cfg.isCycle 0 = false ∧ v.counts 0 (ev 0x11) = true ∧ v.lowAt 0 ≠ 0) := by decide
/-- A held-back update goes first, and then the occurrence is counted. -/
theorem test_count_after_held_back :
    (({ chained { cfgB with chainAtomic := false } 3 with lowPend := [(0, 1)] }).count 0 (ev 0x11)).x = [(0, 1), (1, 3)]
    ∧ (({ chained { cfgB with chainAtomic := false } 3 with lowPend := [(0, 1)] }).count 0 (ev 0x11)).ovs = 1 := by decide
theorem witness_OccurrencesCountLeaveAndTraceOnlyWhereAllowed :
    (idle cfgA).st ≠ .run ∧ (busy cfgA 0).enabled 0 = false
      ∧ (∃ a, (⟨0, some .secure, false, false⟩ : Occ).opst = some a ∧ (busy cfgA 1).env.allowed a = false)
      ∧ ((⟨0, none, true, false⟩ : Occ).debug = true ∧ (busy cfgD 1).cfg.dbgRule 0 = none
        ∧ (busy cfgD 1).cfg.hdbg = true
        ∧ ({ busy cfgD 1 with pmcr := ⟨true, false, false, false, false, true, false⟩ }).pmcr.hdbg = true)
      ∧ ((busy { cfgA with dbgDefault := .never } 1).cfg.dbgRule 0 = none
        ∧ (busy { cfgA with dbgDefault := .never } 1).cfg.hdbg = false
        ∧ (busy { cfgA with dbgDefault := .never } 1).cfg.dbgDefault = .never)
      ∧ ({ cfgA with dbgCount := [(5, .never)] }.dbgRule 5 = some .never)
      ∧ cfgA.eventSel 0 0x11 0 (ev 0x12) = false :=
  ⟨by decide, by decide, ⟨_, rfl, by decide⟩, by decide, by decide, by decide, by decide⟩
/-- R219, R216: what leaves on the event bus and what may be traced. -/
theorem test_exported_and_traced :
    ({ busy cfgA 0 with pmcr := ⟨true, false, true, false, false, false, false⟩ }).exported (ev 0) = true
    ∧ (busy cfgA 0).exported (ev 0) = false
    ∧ ({ busy cfgA 0 with pmcr := ⟨true, false, true, false, false, false, false⟩ }).exported ⟨0, some .secure, false, false⟩ = false
    ∧ (busy cfgA 0).mayTrace (ev 0) = true ∧ (busy { cfgA with tro := true } 0).mayTrace (ev 0) = false
    ∧ (busy cfgA 0).mayTrace ⟨0, some .secure, false, false⟩ = false := by decide
theorem witness_MonitorUpdateStoresValue :
    (busy cfgA2 4).cfg.impl 2 = true ∧ (busy cfgA2 4).cfg.isCounter 2 = false ∧ (busy cfgA2 4).st = .run
      ∧ (busy cfgA2 4).enabled 2 = true ∧ (busy cfgA2 4).prohibited (ev 0).opst = false
      ∧ (busy cfgA2 4).cfg.eventSel 2 0 0 (ev 0) = true ∧ (busy cfgA2 4).cfg.eventSel 2 0 0 (ev 1) = false
      ∧ (idle cfgA2).st ≠ .run ∧ (busy cfgA2 4).cfg.isCounter 1 = true ∧ (busy cfgA2 4).cfg.impl 4 = false
      ∧ (busy cfgA2 0).enabled 2 = false ∧ (busy cfgA2 4).prohibited (some .secure) = true := by decide
theorem witness_AtomicChainUpdatesBothCounters :
    let s := chained cfgB 2
    s.cfg.isCounter 0 = true ∧ s.cfg.isCycle 0 = false ∧ s.counts 0 (ev 0x11) = true ∧ s.lowAt 0 = 0
      ∧ s.chained 0 = true ∧ s.cfg.chainAtomic = true
      ∧ 2 ^ s.cfg.width 0 ≤ (s.xAt 0).toNat + s.cfg.incr 0 (ev 0x11) ∧ s.cfg.wf = true
      ∧ (s.raiseOvs 0).opState = .run ∧ s.opState ≠ .wait := by decide
/-- The overflow that freezes the PMU, for each value of `Cfg.chainOnFreeze`. -/
theorem witness_AtomicChainUpdatesBothCounters_frozen : ∀ how ∈ [ChainOnFreeze.counted, .dropped, .either],
    let s := { chained { cfgB with fzoIgnoresChainedLow := false, chainOnFreeze := how } 2 with
      pmcr := ⟨true, false, false, false, true, false, false⟩ }
    s.cfg.wf = true ∧ s.counts 0 (ev 0x11) = true ∧ s.lowAt 0 = 0 ∧ s.chained 0 = true ∧ s.cfg.chainAtomic = true
      ∧ s.opState ≠ .wait ∧ (s.raiseOvs 0).opState = .wait := by decide
theorem witness_NonAtomicChainUpdatesOddCounterFirst :
    let s := chained { cfgB with chainAtomic := false } 2
    s.cfg.wf = true ∧ s.cfg.isCounter 0 = true ∧ s.cfg.isCycle 0 = false ∧ s.counts 0 (ev 0x11) = true
      ∧ s.lowAt 0 = 0 ∧ s.chained 0 = true ∧ s.cfg.chainAtomic = false
      ∧ 2 ^ s.cfg.width 0 ≤ (s.xAt 0).toNat + s.cfg.incr 0 (ev 0x11)
      ∧ s.enabled 1 = true ∧ s.haltBlocked (s.cfg.chainOcc (ev 0x11)) = false := by decide
theorem witness_CycleCountsOrIsIgnored :
    let s := busy cfgA 0x80000000
    (s.cfg.cc = true ∧ s.cycleCounts (ev 0) = true ∧ (s.cfg.ccd && s.pmcr.d) = false)
      ∧ (idle cfgB).cfg.cc = false ∧ (idle cfgA).st = .stop
      ∧ (({ s with st := .wait }).st = .wait ∧ s.cfg.ccInWait = false) ∧ (busy cfgA 0).enabled 31 = false
      ∧ ({ s.pmcr with dp := true }.dp = true ∧ (⟨0, none, false, true⟩ : Occ).second = true) := by decide
/-- The state of V41.15 with 64 cycles to come. -/
def prescaled : State :=
  { busy cfgA 0x80000000 with
    pmcr := ⟨true, true, false, false, false, false, false⟩, presc := 62
    inputs := (List.range 64).map (fun k => .cycle (ev k)) ++ [.settle] }
theorem witness_PrescalerCountsOncePer64Cycles : prescaled.cfg.wf = true ∧ prescaled.cfg.cc = true
    ∧ prescaled.cfg.ccd = true ∧ prescaled.pmcr.d = true ∧ ((List.range 64).map ev).length = 64
    ∧ (∀ c ∈ (List.range 64).map ev, prescaled.cycleCounts c = true)
    ∧ prescaled.inputs = ((List.range 64).map ev).map .cycle ++ [.settle] :=
  ⟨test_cfgA_wf, by decide, by decide, by decide, by decide, by decide, rfl⟩
theorem witness_OperatingStateTable : (idle cfgA).pmcr.e = false ∧ (busy cfgC 0).pmcr.e = true
    ∧ ((busy cfgC 0).cfg.fzo && (busy cfgC 0).pmcr.fzo) = false ∧ cfgA.fzo = true
    ∧ ({ busy cfgA 0 with pmcr := ⟨true, false, false, false, true, false, false⟩ }).pmcr.fzo = true := by decide
/-- R182: a flag of a disabled monitor is applicable; one of a chained even counter and one of a cycle counter that
counts in WAIT are not, where the configuration says so. -/
theorem test_applicable_R182 : (busy cfgA 0).applicable 2 = true ∧ (chained cfgB 2).applicable 0 = false
    ∧ (chained { cfgB with fzoIgnoresChainedLow := false } 2).applicable 0 = true
    ∧ (busy { cfgA with ccInWait := true } 0).applicable 31 = false ∧ (busy cfgA 0).applicable 31 = true
    ∧ (busy cfgA 0).applicable 4 = false := by decide
theorem witness_QuietMachineSettles :
    let s := { busy cfgA 1 with pend := [⟨.cntr 0, 7⟩], st := .stop }
    s.cfg.wf = true ∧ s.inputs = [] ∧ s.splits = [] ∧ Sparse.wf 0 s.lowPend = true :=
  ⟨test_cfgA_wf, rfl, rfl, rfl⟩
theorem witness_InterruptConditionIsEnabledOverflow : (idle cfgA).opState = .stop := by decide
theorem witness_ResetStopsThePmu : msi.resetStep.cfg.msi = true ∧ msi.resetStep.cfg.msiNsCfg = true
    ∧ msi.resetStep.cfg.wf = true ∧ msi.resetStep.cfg.ss = true := ⟨rfl, rfl, test_cfgC_wf, rfl⟩
theorem witness_ConfigurationNeverChanges :
    after (step { msi with inputs := [.settle] }) (fun _ => true) = true
      ∧ ∀ env rest, ({ msi with inputs := [.settle] } : State).inputs ≠ .setEnv env :: rest :=
  ⟨by decide, fun _ _ h => (nomatch h)⟩

theorem witness_PeripheralIdentificationReads : (idle cfgA).cfg.hasPIDR = true
    ∧ ({ cfgA with hasPIDR := false }).hasPIDR = false := by decide
theorem witness_DeviceIdentificationReads : (idle cfgA).cfg.hasIIDR = true
    ∧ ({ cfgA with hasIIDR := false }).hasIIDR = false := by decide
theorem witness_PmauthstatusShowsWhatIsAllowed : State.reset.cfg.secExt = true
    ∧ ({ cfgA with secExt := false, pmuSecure := false }).secExt = false
    ∧ ({ cfgA with secExt := false, pmuSecure := true }).pmuSecure = true
    ∧ State.reset.env.allowed .nonSecure = true ∧ State.reset.env.allowed .secure = false := by decide
theorem witness_PmdevaffDecodesToTheAffinity : State.reset.cfg.wf = true ∧ State.reset.cfg.hasAffinity = true
    ∧ (idle cfgA).cfg.wf = true ∧ (idle cfgA).cfg.hasAffinity = false :=
  ⟨test_reference_wf, by decide, test_cfgA_wf, by decide⟩

/-- A state with a register held and an access to come satisfies the invariants, and its step gives a next state. -/
theorem witness_StepKeepsInvariant :
    Inv { idle cfgA with inputs := [.access (tableFrame 16 0xE04)], irqcr1 := 7 }
      ∧ after (step { idle cfgA with inputs := [.access (tableFrame 16 0xE04)], irqcr1 := 7 }) (fun _ => true) = true := by
  refine ⟨⟨fun n => ?_, fun n h => ?_, fun n h => ?_, fun n h => ?_,
    ⟨fun h => ?_, fun h => ?_, fun h => ?_, fun h => ?_, fun h => ?_, fun h => ?_⟩, fun h => ?_, fun _ => rfl, fun p hp => ?_,
    fun n h => absurd rfl h, fun h => ?_, fun h => ?_, fun _ => rfl, ?_, ?_, ?_,
    ⟨fun h => ?_, fun h => ?_, fun _ => rfl, fun _ => rfl⟩, fun n m h1 h2 => ?_, fun n m h1 h2 => ?_,
    ⟨rfl, rfl, rfl, rfl, rfl, rfl, rfl, rfl⟩⟩, by decide⟩
  · exact Nat.two_pow_pos _
  · exact absurd ((show (0 : Vec).getLsbD n = true from h).symm.trans (BitVec.getLsbD_zero)) (by decide)
  · exact absurd ((show (0 : Vec).getLsbD n = true from h).symm.trans (BitVec.getLsbD_zero)) (by decide)
  · exact absurd ((show (0 : Vec).getLsbD n = true from h).symm.trans (BitVec.getLsbD_zero)) (by decide)
  all_goals first
    | exact Bool.noConfusion (show false = true from h)
    | exact OpSt.noConfusion (show OpSt.stop = OpSt.wait from h)
    | cases hp
    | decide
    | skip
  · have key : ∀ k ∈ cfgA.mons, k.hasTyper = true →
        (((0 : Word).setWidth 64).setWidth 32) &&& ~~~k.typerMask = k.typerFixed &&& ~~~k.typerMask := by decide
    exact key m (List.mem_of_find?_eq_some h1) h2
  · have key : ∀ k ∈ cfgA.mons, k.hasFiltr = false := by decide
    exact absurd ((key m (List.mem_of_find?_eq_some h1)).symm.trans h2) (by decide)

end Sys2Proof.Tests
end

section
/-! The configuration and the environment's levels (R9, R14): what no operation of the machine touches, except
the step by which the environment itself changes its levels. -/

set_option Elab.async false

namespace Sys2Proof.Machine

/-! ### The relation -/

/-- `t` has the configuration and the environment's levels of `s`. -/
structure SameSetup (s t : State) : Prop where
  cfg : t.cfg = s.cfg
  env : t.env = s.env

variable {s t u : State}

@[refl] theorem SameSetup.refl (s : State) : SameSetup s s := ⟨rfl, rfl⟩

@[trans] theorem SameSetup.trans (h : SameSetup s t) (k : SameSetup t u) : SameSetup s u :=
  ⟨k.cfg.trans h.cfg, k.env.trans h.env⟩

theorem SameSetup.ite {c : Prop} [Decidable c] (h : SameSetup s t) (k : SameSetup s u) :
    SameSetup s (if c then t else u) := by
  split
  · exact h
  · exact k

/-- An operation that keeps the setup keeps it when it is repeated over a list. -/
theorem SameSetup.foldl {f : State → Nat → State} (h : ∀ s n, SameSetup s (f s n)) (l : List Nat)
    (s : State) : SameSetup s (l.foldl f s) := by
  induction l generalizing s with
  | nil => exact .refl s
  | cons n l ih => exact (h s n).trans (ih (f s n))

/-! ### Counting -/

theorem sameSetup_addTo (s : State) (n a : Nat) : SameSetup s (s.addTo n a) := by
  rw [State.addTo_eq]; exact ⟨rfl, rfl⟩

theorem sameSetup_chainLo (s : State) (n : Nat) : SameSetup s (s.chainLo n) := by
  rw [State.chainLo_eq]; exact ⟨rfl, rfl⟩

theorem sameSetup_used (s : State) : SameSetup s s.used := ⟨rfl, rfl⟩

theorem sameSetup_chainFrom (s : State) (n : Nat) (e : Occ) : SameSetup s (s.chainFrom n e) := by
  obtain ⟨-, h⟩ | h := s.chainFrom_cases n e <;> rw [h]
  · exact sameSetup_addTo s (n + 1) 1

theorem sameSetup_chainFromFrozen (s : State) (before : OpSt) (n : Nat) (e : Occ) :
    SameSetup s (s.chainFromFrozen before n e) := by
  obtain h | h | h | h := s.chainFromFrozen_cases before n e <;> rw [h]
  · exact sameSetup_chainFrom s n e
  · exact (sameSetup_used s).trans (sameSetup_chainFrom s.used n e)
  · exact sameSetup_used s

theorem sameSetup_countBy (s : State) (n a : Nat) (e : Occ) : SameSetup s (s.countBy n a e) := by
  obtain h | h | ⟨-, -, -, h⟩ := s.countBy_cases n a e <;> rw [h]
  · exact sameSetup_addTo s n a
  · exact (sameSetup_addTo s n a).trans (sameSetup_chainFromFrozen _ _ n e)
  · exact (sameSetup_chainFrom s n e).trans ⟨rfl, rfl⟩

theorem sameSetup_redrawPresc (s : State) : SameSetup s s.redrawPresc := by
  rw [State.redrawPresc_eq]; exact ⟨rfl, rfl⟩

/-! ### Writes of registers -/

theorem sameSetup_commit (s : State) (r : MonReg) (v : DWord) : SameSetup s (s.commit r v) := by
  cases r with
  | cntr n => rw [State.commit_cntr_eq]; exact ⟨rfl, rfl⟩
  | typer n => exact ⟨rfl, rfl⟩
  | filtr n => exact ⟨rfl, rfl⟩

theorem sameSetup_reopenPresc (s : State) (r : MonReg) : SameSetup s (s.reopenPresc r) := by
  cases r with
  | cntr n => exact .ite (sameSetup_redrawPresc s) (.refl s)
  | typer n => exact .refl s
  | filtr n => exact .refl s

theorem sameSetup_writeMonitorReg (s : State) (r : MonReg) (v : DWord) :
    SameSetup s (s.writeMonitorReg r v) := by
  obtain h | ⟨-, -, h⟩ | ⟨-, -, -, h⟩ := s.writeMonitorReg_cases r v <;> rw [h]
  · have dropped : SameSetup s (s.dropPend r) := ⟨rfl, rfl⟩
    exact dropped.trans (sameSetup_commit _ r v)
  · exact (sameSetup_reopenPresc s r).trans ⟨rfl, rfl⟩

theorem sameSetup_clearMonitor (s : State) (n : Nat) : SameSetup s (s.clearMonitor n) := by
  rw [State.clearMonitor_eq]; exact ⟨rfl, rfl⟩

theorem sameSetup_resetMonitors (s : State) : SameSetup s s.resetMonitors :=
  .foldl sameSetup_clearMonitor _ s

theorem sameSetup_resetCycleCounter (s : State) : SameSetup s s.resetCycleCounter :=
  (sameSetup_clearMonitor s 31).trans (sameSetup_redrawPresc _)

/-- The stored bits, then the resets by P and C, each of which may be left out (R281). -/
theorem sameSetup_writePmcr (s : State) (v : Word) : SameSetup s (s.writePmcr v) := by
  have stored : SameSetup s { s with pmcr := pmcrStored s.cfg s.pmcr v } := ⟨rfl, rfl⟩
  have afterP := SameSetup.ite (c := v.getLsbD 1 = true) (stored.trans (sameSetup_resetMonitors _)) stored
  exact .ite stored (.ite (afterP.trans (sameSetup_resetCycleCounter _)) afterP)

theorem sameSetup_capture (s : State) : SameSetup s s.capture := by
  rw [State.capture_frame]; exact ⟨rfl, rfl⟩

/-! ### Accesses -/

/-- Each write that an access can make keeps the setup. -/
theorem sameSetup_accessRel (i : Instr) : AccessRel SameSetup i where
  refl := .refl
  trans := .trans
  answer _ _ := ⟨rfl, rfl⟩
  used := sameSetup_used
  split _ _ _ _ := ⟨rfl, rfl⟩
  counter s _ _ _ := sameSetup_writeMonitorReg s _ _
  typer s _ _ _ := sameSetup_writeMonitorReg s _ _
  filtr s _ _ _ := sameSetup_writeMonitorReg s _ _
  cntenSet _ _ _ := ⟨rfl, rfl⟩
  cntenClr _ _ _ := ⟨rfl, rfl⟩
  intenSet _ _ _ := ⟨rfl, rfl⟩
  intenClr _ _ _ := ⟨rfl, rfl⟩
  ovsSet _ _ _ := ⟨rfl, rfl⟩
  ovsClr _ _ _ := ⟨rfl, rfl⟩
  impdef _ _ _ := .ite ⟨rfl, rfl⟩ (.refl _)
  pmcr := sameSetup_writePmcr
  capture _ := sameSetup_capture
  ssrrLo _ _ := .ite ⟨rfl, rfl⟩ (.refl _)
  ssrrHi _ _ := .ite ⟨rfl, rfl⟩ (.refl _)
  ssrr _ _ := .ite ⟨rfl, rfl⟩ (.refl _)
  irqcr0Lo _ _ := .ite ⟨rfl, rfl⟩ (.refl _)
  irqcr0Hi _ _ := .ite ⟨rfl, rfl⟩ (.refl _)
  irqcr0 _ _ := .ite ⟨rfl, rfl⟩ (.refl _)
  irqcr1 _ _ := .ite ⟨rfl, rfl⟩ (.refl _)
  irqcr2 _ _ := .ite ⟨rfl, rfl⟩ (.refl _)
  irqsr _ _ := .ite ⟨rfl, rfl⟩ (.refl _)

theorem sameSetup_exec {i : Instr} (h : exec i s = .next t) : SameSetup s t :=
  exec_rel (sameSetup_accessRel i) h

/-- An access that arrives is refused, or it runs its instruction, or it is to a reserved location (R84). -/
theorem sameSetup_arrive {frame : List Byte} (h : s.arrive frame = .next t) : SameSetup s t := by
  unfold State.arrive at h
  split at h
  · cases h
  · split at h
    · cases h
    · split at h
      · cases h
      · exact sameSetup_exec h
      · cases h
        exact .ite ⟨rfl, rfl⟩ ⟨rfl, rfl⟩

theorem sameSetup_finishSplit {k : Nat} (h : s.finishSplit k = .next t) : SameSetup s t := by
  unfold State.finishSplit at h
  split at h
  · split at h
    · rename_i u hu
      cases h
      have removed : SameSetup s { s with splits := s.splits.eraseIdx k } := ⟨rfl, rfl⟩
      exact (removed.trans (sameSetup_exec hu)).trans ⟨rfl, rfl⟩
    · cases h
    · cases h
  · cases h
    exact .refl s

/-! ### The steps of the PMU core -/

theorem sameSetup_count (s : State) (n : Nat) (e : Occ) : SameSetup s (s.count n e) :=
  .ite ((sameSetup_chainLo s n).trans (sameSetup_countBy _ n _ e)) (.refl s)

theorem sameSetup_monitorUpdate (s : State) (n : Nat) (v : DWord) (ovf : Bool) (e : Occ) :
    SameSetup s (s.monitorUpdate n v ovf e) :=
  .ite (.ite ⟨rfl, rfl⟩ ⟨rfl, rfl⟩) (.refl s)

theorem sameSetup_takeEffect (s : State) (r : MonReg) : SameSetup s (s.takeEffect r) := by
  unfold State.takeEffect
  split
  · rename_i v rest _
    have taken : SameSetup s { s with pend := rest } := ⟨rfl, rfl⟩
    exact taken.trans (sameSetup_commit _ r v)
  · exact .refl s

theorem sameSetup_cycle (s : State) (c : Occ) : SameSetup s (s.cycle c) := by
  have phase : SameSetup s { s with presc := s.presc + 1 } := ⟨rfl, rfl⟩
  exact .ite (.ite (.ite (phase.trans (sameSetup_addTo _ 31 1)) phase) (sameSetup_addTo s 31 1)) (.refl s)

theorem sameSetup_snapReq (s : State) : SameSetup s s.snapReq :=
  .ite (sameSetup_capture s) (.refl s)

theorem sameSetup_msiStart (s : State) : SameSetup s s.msiStart :=
  .ite ⟨rfl, rfl⟩ (.refl s)

theorem sameSetup_msiArrive (s : State) : SameSetup s s.msiArrive := by
  rw [State.msiArrive_eq]; exact ⟨rfl, rfl⟩

theorem sameSetup_msiDone (s : State) (err : Bool) : SameSetup s (s.msiDone err) := by
  have ended : SameSetup s (s.endFlight err) := by
    rw [State.endFlight_eq]; exact ⟨rfl, rfl⟩
  exact .ite (ended.trans ⟨rfl, rfl⟩) (.refl s)

theorem sameSetup_strayEnd (s : State) (k : Nat) (reaches : Bool) :
    SameSetup s (s.strayEnd k reaches) := by
  rw [State.strayEnd_eq]; exact ⟨rfl, rfl⟩

theorem sameSetup_rearm (s : State) : SameSetup s s.rearm :=
  .ite (.refl s) ⟨rfl, rfl⟩

/-! ### Every step -/

/-- Every agent's step but a change of the environment keeps the setup (R9, R140). -/
theorem sameSetup_take {i : Input} (hi : ∀ env, i ≠ .setEnv env) (h : s.take i = .next t) :
    SameSetup s t := by
  cases i with
  | access frame => exact sameSetup_arrive h
  | splitHalf k => exact sameSetup_finishSplit h
  | settle => cases h; exact ⟨rfl, rfl⟩
  | count n e => cases h; exact sameSetup_count s n e
  | monitorUpdate n v ovf e => cases h; exact sameSetup_monitorUpdate s n v ovf e
  | takeEffect r => cases h; exact sameSetup_takeEffect s r
  | cycle c => cases h; exact sameSetup_cycle s c
  | chainLo n => cases h; exact sameSetup_chainLo s n
  | snapReq => cases h; exact sameSetup_snapReq s
  | msiStart => cases h; exact sameSetup_msiStart s
  | msiDone err => cases h; exact sameSetup_msiDone s err
  | msiArrive => cases h; exact sameSetup_msiArrive s
  | strayEnd k reaches => cases h; exact sameSetup_strayEnd s k reaches
  | reset => cases h; exact ⟨rfl, rfl⟩
  | setEnv env => exact absurd rfl (hi env)

/-- Every agent's step keeps the configuration, a change of the environment too (R9). -/
theorem take_cfg {i : Input} (h : s.take i = .next t) : t.cfg = s.cfg := by
  by_cases hi : ∃ env, i = .setEnv env
  · obtain ⟨env, rfl⟩ := hi
    cases h; rfl
  · exact (sameSetup_take (fun env he => hi ⟨env, he⟩) h).cfg

/-- The steps taken when no input is left keep the setup. -/
theorem sameSetup_idle (h : s.idle = .next t) : SameSetup s t := by
  unfold State.idle at h
  split at h
  · exact sameSetup_finishSplit h
  · split at h
    · cases h; exact sameSetup_chainLo s _
    · split at h
      · cases h; exact sameSetup_takeEffect s _
      · split at h
        · cases h; exact ⟨rfl, rfl⟩
        · split at h
          · cases h; exact (sameSetup_used s).trans (sameSetup_msiDone s.used _)
          · cases h; exact sameSetup_msiStart s

theorem advance_cfg (h : s.advance = .next t) : t.cfg = s.cfg := by
  unfold State.advance at h
  split at h
  · exact (take_cfg h).trans rfl
  · exact (sameSetup_idle h).cfg

theorem advance_env (hs : ∀ env rest, s.inputs ≠ .setEnv env :: rest) (h : s.advance = .next t) :
    t.env = s.env := by
  unfold State.advance at h
  split at h
  · rename_i i rest hi
    have hne : ∀ env, i ≠ .setEnv env := fun env he => hs env rest (he ▸ hi)
    exact (sameSetup_take hne h).env.trans rfl
  · exact (sameSetup_idle h).env

/-- A step of the machine that gives a next state is one agent's step, under a well-formed configuration, and
the re-arm after it (R14, R358). -/
theorem step_eq_next (h : step s = .next t) :
    s.cfg.wf = true ∧ ∃ u, s.advance = .next u ∧ t = u.rearm := by
  unfold step at h
  split at h
  · rename_i hwf
    cases ha : s.advance with
    | next u =>
      rw [ha] at h
      cases h
      exact ⟨hwf, u, rfl, rfl⟩
    | fault r => rw [ha] at h; cases h
    | refused r => rw [ha] at h; cases h
  · cases h

/-- Settles O56: a step is one agent's step and the re-arm, the re-arm keeps the setup, and of the agents' steps
only the environment's own changes its levels. -/
theorem configurationNeverChanges : Obligations.ConfigurationNeverChanges := by
  unfold Obligations.ConfigurationNeverChanges
  intro s t h
  obtain ⟨-, u, hu, rfl⟩ := step_eq_next h
  have rearmed := sameSetup_rearm u
  exact ⟨rearmed.cfg.trans (advance_cfg hu), fun hs => rearmed.env.trans (advance_env hs hu)⟩

end Sys2Proof.Machine
end

section
/-! Every register as a 32-bit location (R72, R73): one normal form of `exec`, from which the four access forms
(R110) of every register follow. -/

set_option Elab.async false

namespace Sys2Proof

open Sys2Proof.Machine

/-- The 32-bit location at the offset of a register. -/
def Instr.half (c : Cfg) : Instr → Half
  | .pmevcntr n _ => counter32 n
  | .pmevcntrLo n _ => counterLo n
  | .pmevcntrHi n _ => counterHi n
  | .pmccntr _ => (counter32 31).onlyIf Cfg.cc
  | .pmccntrLo _ => (counterLo 31).onlyIf Cfg.cc
  | .pmccntrHi _ => (counterHi 31).onlyIf Cfg.cc
  | .pmevtyper n _ => typerHalf n
  | .pmccfiltr _ => (typerHalf 31).onlyIf Cfg.cc
  | .pmevfiltr n _ => filtrHalf n
  | .pmsvr k _ => svrHalf k
  | .pmsssr _ => svrHalf c.ssrIdx
  | .pmovssr m _ => svrHalf (c.slotIdx (.ovs m))
  | .pmcntenset m _ => cntenSetHalf m
  | .pmcntenclr m _ => cntenClrHalf m
  | .pmintenset m _ => intenSetHalf m
  | .pmintenclr m _ => intenClrHalf m
  | .pmovsclr m _ => ovsClrHalf m
  | .pmovsset m _ => ovsSetHalf m
  | .impdef k _ => impdefHalf k
  | .pmcr _ => pmcrHalf
  | .pmsscr _ => sscrHalf
  | .pmssrrLo _ => ssrrLoHalf
  | .pmssrrHi _ => ssrrHiHalf
  | .pmirqcr0Lo a => irqcr0LoHalf a.ns
  | .pmirqcr0Hi a => irqcr0HiHalf a.ns
  | .pmirqcr1 a => irqcr1Half a.ns
  | .pmirqcr2 a => irqcr2Half a.ns
  | .pmirqsrLo a => irqsrLoHalf a.ns
  | .pmdevaffLo _ => devaffLoHalf
  | .pmdevaffHi _ => devaffHiHalf
  | .pmcgcr k _ => .readOnly (fun s => s.cfg.pmcgcr k)
  | .pmceid k _ => .readOnly (fun s => s.cfg.pmceid k)
  | .pmcfgr a => .readOnly (fun s => s.cfg.pmcfgrView (a.page == .p1))
  | .pmiidr _ => .readOnly (fun s => s.cfg.pmiidr)
  | .pmauthstatus _ => .readOnly State.readAuthstatus
  | .pmdevarch a => .readOnly (fun s => s.cfg.pmdevarch (a.page == .p1))
  | .pmdevid _ => .readOnly (fun s => s.cfg.devid)
  | .pmdevtype a => .readOnly (fun s => s.cfg.pmdevtype (a.page == .p1))
  | .pmpidr0 _ => .readOnly (fun s => s.cfg.pidr s.cfg.pidr0)
  | .pmpidr1 _ => .readOnly (fun s => s.cfg.pidr s.cfg.pidr1)
  | .pmpidr2 _ => .readOnly (fun s => s.cfg.pidr s.cfg.pidr2)
  | .pmpidr3 _ => .readOnly (fun s => s.cfg.pidr s.cfg.pidr3)
  | .pmpidr4 _ => .readOnly (fun s => s.cfg.pidr s.cfg.pidr4)
  | .pmcidr0 _ => .readOnly (fun s => s.cfg.pidr 0x0D)
  | .pmcidr1 _ => .readOnly (fun s => s.cfg.pidr 0x90)
  | .pmcidr2 _ => .readOnly (fun s => s.cfg.pidr 0x05)
  | .pmcidr3 _ => .readOnly (fun s => s.cfg.pidr 0xB1)
  | .pmirqsrHi _ | .pmpidr5 _ | .pmpidr6 _ | .pmpidr7 _ => .res0

/-- The one-step 64-bit write at the offset of a register (R73, R77); of a register that admits none, or that is
read-only, it does nothing. -/
def Instr.writeBoth : Instr → DWord → State → State
  | .pmevcntrLo n _ => counterBoth n
  | .pmccntrLo _ => fun v s => if s.cfg.cc then counterBoth 31 v s else s
  | .pmcntenset m _ => pairWrite (cntenSetHalf m) (cntenSetHalf (m + 1))
  | .pmcntenclr m _ => pairWrite (cntenClrHalf m) (cntenClrHalf (m + 1))
  | .pmintenset m _ => pairWrite (intenSetHalf m) (intenSetHalf (m + 1))
  | .pmintenclr m _ => pairWrite (intenClrHalf m) (intenClrHalf (m + 1))
  | .pmovsclr m _ => pairWrite (ovsClrHalf m) (ovsClrHalf (m + 1))
  | .pmovsset m _ => pairWrite (ovsSetHalf m) (ovsSetHalf (m + 1))
  | .impdef k _ => pairWrite (impdefHalf k) (impdefHalf (k + 1))
  | .pmssrrLo _ => fun v s => s.writeSsrr v
  | .pmirqcr0Lo a => fun v s => s.writeIrqcr0 a.ns v
  | .pmirqsrLo a => fun v s => (irqsrLoHalf a.ns).wr (v.extractLsb' 0 32) s
  | _ => fun _ s => s

@[simp] theorem Instr.access_withOp (i : Instr) (op : AccOp) :
    (i.withOp op).access = { i.access with op := op } := by
  cases i <;> rfl

@[simp] theorem Instr.half_withOp (i : Instr) (c : Cfg) (op : AccOp) :
    (i.withOp op).half c = i.half c := by
  cases i <;> rfl

/-- No read depends on the answer of the last access, the free values used or the outstanding second halves. -/
theorem Instr.half_rd_congr (i : Instr) (c : Cfg) (s : State) (k : Nat) (r : Resp) (l : List Split) :
    (i.half c).rd { s with draws := k, resp := r, splits := l } = (i.half c).rd s := by
  cases i <;> rfl

namespace Machine

/-- Every access is one at the lower offset of a possible pair: its register's location, the one at the upper
offset, and the same form of access to each half (R72 to R78). -/
theorem exec_eq_access64 (i : Instr) (s : State) :
    exec i s = access64 (i.supports64 s.cfg) (i.half s.cfg) ((i.upper s.cfg).half s.cfg) i.writeBoth
      (fun a => i.withOp a.op) (fun a => (i.upper s.cfg).withOp a.op) i.access s := by
  cases i
  all_goals
    rename Access => a
    obtain ⟨page, ns, op⟩ := a
    cases op <;> rfl

end Machine
end Sys2Proof
end

section
/-! The access forms (R72 to R78) of every register, and the statements about them. -/

set_option Elab.async false

namespace Sys2Proof.Machine

variable {i : Instr} {s : State}

theorem exec_rd32 (h : i.access.op = .rd32) :
    exec i s = .next (s.answer (.data32 ((i.half s.cfg).rd s))) := by
  rw [exec_eq_access64, access64, h]; rfl

theorem exec_wr32 {v : Word} (h : i.access.op = .wr32 v) :
    exec i s = .next ((i.half s.cfg).write v s) := by
  rw [exec_eq_access64, access64, h]

/-- The 32-bit read of a register, whatever form its access had. -/
theorem exec_withOp_rd32 (i : Instr) (s : State) :
    exec (i.withOp .rd32) s = .next (s.answer (.data32 ((i.half s.cfg).rd s))) := by
  rw [exec_rd32 (by rw [Instr.access_withOp]), Instr.half_withOp]

/-- The 32-bit write of a register, whatever form its access had. -/
theorem exec_withOp_wr32 (i : Instr) (v : Word) (s : State) :
    exec (i.withOp (.wr32 v)) s = .next ((i.half s.cfg).write v s) := by
  rw [exec_wr32 (by rw [Instr.access_withOp]), Instr.half_withOp]

theorem exec_rd64 (hi : i.supports64 s.cfg = true) (h : i.access.op = .rd64) :
    exec i s = .next (read64 (i.half s.cfg) ((i.upper s.cfg).half s.cfg) (fun a => i.withOp a.op)
      (fun a => (i.upper s.cfg).withOp a.op) i.access s) := by
  rw [exec_eq_access64, access64, h, hi]; rfl

theorem exec_wr64 {v : DWord} (hi : i.supports64 s.cfg = true) (h : i.access.op = .wr64 v) :
    exec i s = .next (write64 (i.half s.cfg) ((i.upper s.cfg).half s.cfg) i.writeBoth
      (fun a => i.withOp a.op) (fun a => (i.upper s.cfg).withOp a.op) i.access v s) := by
  rw [exec_eq_access64, access64, h, hi]; rfl

/-- A single-copy atomic 64-bit write is one step (R73). -/
theorem exec_wr64_atomic {v : DWord} (hi : i.supports64 s.cfg = true) (hat : s.cfg.atomic64 = true)
    (h : i.access.op = .wr64 v) : exec i s = .next ((i.writeBoth v s).answer .done) := by
  rw [exec_wr64 hi h, write64, if_pos hat]

theorem exec_unsupported (hw : i.access.op.is64 = true) (hi : i.supports64 s.cfg = false) :
    exec i s = .refused .unsupportedAccess := by
  rw [exec_eq_access64, access64, hi]
  cases h : i.access.op with
  | rd32 => rw [h] at hw; cases hw
  | wr32 v => rw [h] at hw; cases hw
  | rd64 => rfl
  | wr64 v => rfl

/-- Every supported access gives a next state (R421). -/
theorem exec_completes (h : i.access.op.is64 = true → i.supports64 s.cfg = true) :
    ∃ t, exec i s = .next t := by
  cases hop : i.access.op with
  | rd32 => exact ⟨_, exec_rd32 hop⟩
  | wr32 v => exact ⟨_, exec_wr32 hop⟩
  | rd64 => exact ⟨_, exec_rd64 (h (by rw [hop]; rfl)) hop⟩
  | wr64 v => exact ⟨_, exec_wr64 (h (by rw [hop]; rfl)) hop⟩

/-- Settles O7: the 32-bit read of every register only answers its location's word. -/
theorem readsAnswerAndChangeNothing : Obligations.ReadsAnswerAndChangeNothing := by
  unfold Obligations.ReadsAnswerAndChangeNothing
  intro i s h
  exact ⟨_, exec_rd32 h⟩

/-- Settles O10: an atomic 64-bit read joins what the 32-bit reads of the two locations answer. -/
theorem wideReadIsBothHalves : Obligations.WideReadIsBothHalves := by
  unfold Obligations.WideReadIsBothHalves
  intro i s hi hat h
  refine ⟨_, _, exec_withOp_rd32 i s, exec_withOp_rd32 _ s, ?_⟩
  rw [exec_rd64 hi h, read64, if_pos hat]

/-! ### Split accesses -/

/-- The last of the outstanding second halves arrives: its access runs on the state without it, and the two
answers are joined (R78). -/
theorem finishSplit_last {l : List Split} {p : Split} {t : State} (hs : s.splits = l ++ [p])
    (he : exec p.second { s with splits := l } = .next t) :
    s.finishSplit l.length = .next (t.answer (p.join t.resp)) := by
  have held : s.splits[l.length]? = some p := by rw [hs]; exact List.getElem?_concat_length
  have left : s.splits.eraseIdx l.length = l := by
    rw [hs, List.eraseIdx_append_of_length_le (Nat.le_refl _), Nat.sub_self, List.eraseIdx_cons_zero,
      List.append_nil]
  rw [State.finishSplit, held]
  simp only [left, he]

/-- The second half of a split read that arrives with nothing in between reads what it would have read before
the first (R78). -/
theorem finishSplit_splitOff_rd32 (s : State) (w : Word) (firstHi : Bool) (j : Instr) :
    (s.used.splitOff w firstHi (j.withOp .rd32)).finishSplit s.splits.length
      = .next { s with
          draws := s.draws + 1
          resp := .data64 (if firstHi then w ++ (j.half s.cfg).rd s else (j.half s.cfg).rd s ++ w) } := by
  rw [finishSplit_last (p := ⟨w, firstHi, j.withOp .rd32⟩) rfl (exec_withOp_rd32 j _),
    ← j.half_rd_congr s.cfg s (s.draws + 1) .split s.splits]
  rfl

/-- Settles O11: whichever half the free value picks, the other one reads what it would have read at once, since
nothing that the first half changed is read. -/
theorem splitReadJoinsHalves : Obligations.SplitReadJoinsHalves := by
  unfold Obligations.SplitReadJoinsHalves
  intro i s hi hat h
  have notAtomic : ¬ s.cfg.atomic64 = true := by rw [hat]; exact Bool.false_ne_true
  cases hd : s.drawn.getLsbD 0 with
  | true =>
    refine ⟨_, _, s.used.splitOff _ true (i.withOp .rd32), _, exec_withOp_rd32 i s, exec_withOp_rd32 _ s,
      ?_, List.length_append, finishSplit_splitOff_rd32 s _ true i, rfl⟩
    rw [exec_rd64 hi h, read64, if_neg notAtomic, if_pos hd]
  | false =>
    refine ⟨_, _, s.used.splitOff _ false ((i.upper s.cfg).withOp .rd32), _, exec_withOp_rd32 i s,
      exec_withOp_rd32 _ s, ?_, List.length_append, finishSplit_splitOff_rd32 s _ false _, rfl⟩
    rw [exec_rd64 hi h, read64, if_neg notAtomic, if_neg (by rw [hd]; exact Bool.false_ne_true)]

/-- Settles O12: the half that the free value picks is written now, as its 32-bit write would write it. -/
theorem splitWriteIsTwoWrites : Obligations.SplitWriteIsTwoWrites := by
  unfold Obligations.SplitWriteIsTwoWrites
  intro i s v hi hat h
  have notAtomic : ¬ s.cfg.atomic64 = true := by rw [hat]; exact Bool.false_ne_true
  cases hd : s.drawn.getLsbD 0 with
  | true =>
    refine .inr ⟨_, exec_withOp_wr32 _ _ s.used, ?_⟩
    rw [exec_wr64 hi h, write64, if_neg notAtomic, if_pos hd]
    rfl
  | false =>
    refine .inl ⟨_, exec_withOp_wr32 i _ s.used, ?_⟩
    rw [exec_wr64 hi h, write64, if_neg notAtomic, if_neg (by rw [hd]; exact Bool.false_ne_true)]
    rfl

/-! ### Pairs of set and clear registers -/

/-- A pair write is the 32-bit write of the lower register and then that of the upper one, where the second does
not look at the answer of the first (R77). -/
theorem pairWrite_answer {lo hi : Half} (v : DWord) (s : State)
    (blind : ∀ w t, hi.wr w (t.answer .done) = (hi.wr w t).answer .done) :
    (pairWrite lo hi v s).answer .done
      = hi.write (v.extractLsb' 32 32) (lo.write (v.extractLsb' 0 32) s) := by
  rw [Half.write, Half.write, blind]; rfl

/-- An atomic 64-bit write that is a pair write of its register's location and the upper one is the two 32-bit
writes of the two registers, in turn (R77). -/
theorem wr64_eq_two_writes {i : Instr} {s : State} {d : DWord} (hi : i.supports64 s.cfg = true)
    (hat : s.cfg.atomic64 = true) (h : i.access.op = .wr64 d)
    (both : i.writeBoth = pairWrite (i.half s.cfg) ((i.upper s.cfg).half s.cfg))
    (keeps : ((i.half s.cfg).write (d.extractLsb' 0 32) s).cfg = s.cfg)
    (blind : ∀ w t, ((i.upper s.cfg).half s.cfg).wr w (t.answer .done)
      = (((i.upper s.cfg).half s.cfg).wr w t).answer .done) :
    ∃ t u, exec (i.withOp (.wr32 (d.extractLsb' 0 32))) s = .next t
      ∧ exec ((i.upper s.cfg).withOp (.wr32 (d.extractLsb' 32 32))) t = .next u ∧ exec i s = .next u := by
  refine ⟨_, _, exec_withOp_wr32 i _ s, exec_withOp_wr32 _ _ _, ?_⟩
  rw [exec_wr64_atomic hi hat h, both, pairWrite_answer d s blind, keeps]

/-- Settles O23: the 64-bit write of each of the six arrays is a pair write. -/
theorem widePairWriteIsBothWrites : Obligations.WidePairWriteIsBothWrites := by
  unfold Obligations.WidePairWriteIsBothWrites
  intro s m a d hm hp hat h i hi
  have pair : s.cfg.setClearPair m = true := by simp [Cfg.setClearPair, hp, hm]
  simp only [List.mem_cons, List.not_mem_nil, or_false] at hi
  obtain rfl | rfl | rfl | rfl | rfl | rfl := hi
  all_goals exact wr64_eq_two_writes pair hat h rfl rfl (fun _ _ => rfl)

end Sys2Proof.Machine
end

section
/-! What the operations leave alone: counting and captures write only the counters and what goes with them, and
accesses write only the registers, never what is outside the PMU or in flight (R93, R140). -/

set_option Elab.async false

namespace Sys2Proof.Machine

/-! ### Everything but the counters -/

/-- The state with everything blanked that counting, captures and redrawn prescaler phases write. -/
def State.apartFromCounts (s : State) : State :=
  { s with x := [], svr := [], lowPend := [], ovs := 0, presc := 0, draws := 0 }

/-- The state with everything blanked that an access can write: the registers and their pending writes, the
answer, the outstanding second halves and the count of free values. -/
def State.apartFromRegisters (s : State) : State :=
  { s with
    splits := [], resp := .none, draws := 0, x := [], typer := [], filtr := [], svr := [], impdef := []
    lowPend := [], cnten := 0, inten := 0, ovs := 0
    pmcr := ⟨false, false, false, false, false, false, false⟩
    pmssrr := 0, irqcr0 := 0, irqcr1 := 0, irqcr2 := ⟨false, false, 0, 0⟩, irqErr := false
    pend := [], presc := 0 }

variable {s t : State}

theorem apartFromRegisters_of_counts (h : t.apartFromCounts = s.apartFromCounts) :
    t.apartFromRegisters = s.apartFromRegisters :=
  (congrArg State.apartFromRegisters h :)

theorem pend_of_counts (h : t.apartFromCounts = s.apartFromCounts) : t.pend = s.pend :=
  (congrArg State.pend h :)

theorem addTo_counts (s : State) (n a : Nat) : (s.addTo n a).apartFromCounts = s.apartFromCounts := by
  rw [State.addTo_eq]; rfl

theorem chainLo_counts (s : State) (n : Nat) : (s.chainLo n).apartFromCounts = s.apartFromCounts := by
  rw [State.chainLo_eq]; rfl

theorem redrawPresc_counts (s : State) : s.redrawPresc.apartFromCounts = s.apartFromCounts := by
  rw [State.redrawPresc_eq]; rfl

theorem chainFrom_counts (s : State) (n : Nat) (e : Occ) :
    (s.chainFrom n e).apartFromCounts = s.apartFromCounts := by
  obtain ⟨-, h⟩ | h := s.chainFrom_cases n e
  · rw [h, addTo_counts]
  · rw [h]

theorem chainFromFrozen_counts (s : State) (before : OpSt) (n : Nat) (e : Occ) :
    (s.chainFromFrozen before n e).apartFromCounts = s.apartFromCounts := by
  obtain h | h | h | h := s.chainFromFrozen_cases before n e
  · rw [h, chainFrom_counts]
  · rw [h]
  · rw [h, chainFrom_counts]; rfl
  · rw [h]; rfl

theorem countBy_counts (s : State) (n a : Nat) (e : Occ) :
    (s.countBy n a e).apartFromCounts = s.apartFromCounts := by
  obtain h | h | ⟨-, -, -, h⟩ := s.countBy_cases n a e
  · rw [h, addTo_counts]
  · rw [h, chainFromFrozen_counts, addTo_counts]
  · rw [h]; exact chainFrom_counts s n e

theorem count_counts (s : State) (n : Nat) (e : Occ) : (s.count n e).apartFromCounts = s.apartFromCounts := by
  unfold State.count
  split
  · rw [countBy_counts, chainLo_counts]
  · rfl

theorem monitorUpdate_counts (s : State) (n : Nat) (v : DWord) (ovf : Bool) (e : Occ) :
    (s.monitorUpdate n v ovf e).apartFromCounts = s.apartFromCounts := by
  unfold State.monitorUpdate
  split
  · dsimp only
    split <;> rfl
  · rfl

theorem cycle_counts (s : State) (c : Occ) : (s.cycle c).apartFromCounts = s.apartFromCounts := by
  unfold State.cycle
  split
  · split
    · dsimp only
      split
      · rw [addTo_counts]; rfl
      · rfl
    · rw [addTo_counts]
  · rfl

theorem capture_counts (s : State) : s.capture.apartFromCounts = s.apartFromCounts := by
  rw [State.capture_frame]; rfl

theorem snapReq_counts (s : State) : s.snapReq.apartFromCounts = s.apartFromCounts := by
  unfold State.snapReq
  split
  · exact capture_counts s
  · rfl

/-! ### Everything but the registers -/

theorem commit_registers (s : State) (r : MonReg) (v : DWord) :
    (s.commit r v).apartFromRegisters = s.apartFromRegisters := by
  cases r with
  | cntr n => rw [State.commit_cntr_eq]; rfl
  | typer n => rfl
  | filtr n => rfl

theorem reopenPresc_counts (s : State) (r : MonReg) :
    (s.reopenPresc r).apartFromCounts = s.apartFromCounts := by
  cases r with
  | cntr n =>
    simp only [State.reopenPresc]
    split
    · exact redrawPresc_counts s
    · rfl
  | typer n => rfl
  | filtr n => rfl

theorem writeMonitorReg_registers (s : State) (r : MonReg) (v : DWord) :
    (s.writeMonitorReg r v).apartFromRegisters = s.apartFromRegisters := by
  obtain h | ⟨-, -, h⟩ | ⟨-, -, -, h⟩ := s.writeMonitorReg_cases r v <;> rw [h]
  · rw [commit_registers]; rfl
  · have reopened := apartFromRegisters_of_counts (reopenPresc_counts s r)
    exact reopened

theorem takeEffect_registers (s : State) (r : MonReg) :
    (s.takeEffect r).apartFromRegisters = s.apartFromRegisters := by
  unfold State.takeEffect
  split
  · rw [commit_registers]; rfl
  · rfl

theorem clearMonitor_registers (s : State) (n : Nat) :
    (s.clearMonitor n).apartFromRegisters = s.apartFromRegisters := by
  rw [State.clearMonitor_eq]; rfl

theorem resetMonitors_registers (s : State) : s.resetMonitors.apartFromRegisters = s.apartFromRegisters := by
  unfold State.resetMonitors
  rw [State.foldl_clearMonitor_eq]; rfl

theorem resetCycleCounter_registers (s : State) :
    s.resetCycleCounter.apartFromRegisters = s.apartFromRegisters :=
  (apartFromRegisters_of_counts (redrawPresc_counts _)).trans (clearMonitor_registers s 31)

/-- A write that only happens under a condition leaves alone what it leaves alone where it happens. -/
theorem ite_registers {c : Prop} [Decidable c] {u : State} (h : t.apartFromRegisters = s.apartFromRegisters)
    (k : u.apartFromRegisters = s.apartFromRegisters) :
    (if c then t else u).apartFromRegisters = s.apartFromRegisters := by
  split
  · exact h
  · exact k

/-- The stored bits, then the resets by P and by C, each of which may be left out (R281). -/
theorem writePmcr_registers (s : State) (v : Word) :
    (s.writePmcr v).apartFromRegisters = s.apartFromRegisters := by
  unfold State.writePmcr
  dsimp only
  split
  · rfl
  · have stored : State.apartFromRegisters { s with pmcr := pmcrStored s.cfg s.pmcr v } = s.apartFromRegisters := rfl
    split
    · rw [resetCycleCounter_registers]
      exact ite_registers (resetMonitors_registers _) stored
    · exact ite_registers (resetMonitors_registers _) stored

/-- Each write that an access can make leaves everything but the registers alone. -/
theorem accessRel_registers (i : Instr) :
    AccessRel (fun s t => t.apartFromRegisters = s.apartFromRegisters) i where
  refl _ := rfl
  trans h k := k.trans h
  answer _ _ := rfl
  used _ := rfl
  split _ _ _ _ := rfl
  counter s _ _ _ := writeMonitorReg_registers s _ _
  typer s _ _ _ := writeMonitorReg_registers s _ _
  filtr s _ _ _ := writeMonitorReg_registers s _ _
  cntenSet _ _ _ := rfl
  cntenClr _ _ _ := rfl
  intenSet _ _ _ := rfl
  intenClr _ _ _ := rfl
  ovsSet _ _ _ := rfl
  ovsClr _ _ _ := rfl
  impdef _ _ _ := ite_registers rfl rfl
  pmcr := writePmcr_registers
  capture _ s := apartFromRegisters_of_counts (capture_counts s)
  ssrrLo _ _ := ite_registers rfl rfl
  ssrrHi _ _ := ite_registers rfl rfl
  ssrr _ _ := ite_registers rfl rfl
  irqcr0Lo _ _ := ite_registers rfl rfl
  irqcr0Hi _ _ := ite_registers rfl rfl
  irqcr0 _ _ := ite_registers rfl rfl
  irqcr1 _ _ := ite_registers rfl rfl
  irqcr2 _ _ := ite_registers rfl rfl
  irqsr _ _ := ite_registers rfl rfl

theorem exec_registers {i : Instr} (h : exec i s = .next t) : t.apartFromRegisters = s.apartFromRegisters :=
  exec_rel (R := fun s t => t.apartFromRegisters = s.apartFromRegisters) (accessRel_registers i) h

theorem sameMemory_of_registers (h : t.apartFromRegisters = s.apartFromRegisters) : SameMemory s t := by
  have hS : t.memS = s.memS := (congrArg State.memS h :)
  have hNS : t.memNS = s.memNS := (congrArg State.memNS h :)
  intro a
  rw [hS, hNS]
  exact ⟨rfl, rfl⟩

/-- Settles O8: a supported access completes, and everything the statement names is apart from the registers. -/
theorem accessesCompleteAndLeaveMemory : Obligations.AccessesCompleteAndLeaveMemory := by
  unfold Obligations.AccessesCompleteAndLeaveMemory
  intro i s hi
  obtain ⟨t, ht⟩ := exec_completes hi
  have h := exec_registers ht
  have read {α : Type} (f : State → α) : f t.apartFromRegisters = f s.apartFromRegisters := congrArg f h
  exact ⟨t, ht, sameMemory_of_registers h, read State.sent, read State.cfg, read State.env, read State.inputs,
    read State.st, read State.msiBusy, read State.irqPrev, read State.flight, read State.strays⟩

/-! ### System memory and the messages issued -/

/-- An access that arrives runs an instruction, or is to a reserved location; else it is refused (R84). -/
theorem arrive_registers {frame : List Byte} (h : s.arrive frame = .next t) :
    t.apartFromRegisters = s.apartFromRegisters := by
  unfold State.arrive at h
  split at h
  · cases h
  · split at h
    · cases h
    · split at h
      · cases h
      · exact exec_registers h
      · cases h
        exact ite_registers rfl rfl

theorem finishSplit_registers {k : Nat} (h : s.finishSplit k = .next t) :
    t.apartFromRegisters = s.apartFromRegisters := by
  unfold State.finishSplit at h
  split at h
  · split at h
    · rename_i u hu
      cases h
      have ran := exec_registers hu
      exact ran
    · cases h
    · cases h
  · cases h
    rfl

/-- The steps that write only registers: every one but those of the interrupt message, the settling, the reset and
a change of the environment's levels. -/
def Input.onlyRegisters : Input → Bool
  | .access _ | .splitHalf _ | .count _ _ | .monitorUpdate _ _ _ _ | .takeEffect _ | .cycle _ | .chainLo _
  | .snapReq => true
  | .settle | .msiStart | .msiDone _ | .msiArrive | .strayEnd _ _ | .reset | .setEnv _ => false

theorem take_registers {i : Input} (hi : i.onlyRegisters = true) (h : s.take i = .next t) :
    t.apartFromRegisters = s.apartFromRegisters := by
  cases i with
  | access frame => exact arrive_registers h
  | splitHalf k => exact finishSplit_registers h
  | count n e => cases h; exact apartFromRegisters_of_counts (count_counts s n e)
  | monitorUpdate n v ovf e => cases h; exact apartFromRegisters_of_counts (monitorUpdate_counts s n v ovf e)
  | takeEffect r => cases h; exact takeEffect_registers s r
  | cycle c => cases h; exact apartFromRegisters_of_counts (cycle_counts s c)
  | chainLo n => cases h; exact apartFromRegisters_of_counts (chainLo_counts s n)
  | snapReq => cases h; exact apartFromRegisters_of_counts (snapReq_counts s)
  | settle | msiStart | msiDone _ | msiArrive | strayEnd _ _ | reset | setEnv _ => cases hi

theorem msiStart_memory (s : State) : s.msiStart.memS = s.memS ∧ s.msiStart.memNS = s.memNS := by
  unfold State.msiStart
  split <;> exact ⟨rfl, rfl⟩

/-- Only the arrival and the end of a message write change system memory (R93). -/
theorem take_memory {i : Input} (harr : i ≠ .msiArrive) (hdone : ∀ err, i ≠ .msiDone err)
    (hstray : ∀ k reaches, i ≠ .strayEnd k reaches) (h : s.take i = .next t) : SameMemory s t := by
  by_cases hi : i.onlyRegisters = true
  · exact sameMemory_of_registers (take_registers hi h)
  · cases i with
    | settle => cases h; exact fun _ => ⟨rfl, rfl⟩
    | reset => cases h; exact fun _ => ⟨rfl, rfl⟩
    | setEnv env => cases h; exact fun _ => ⟨rfl, rfl⟩
    | msiStart =>
      cases h
      obtain ⟨hS, hNS⟩ := msiStart_memory s
      intro a
      rw [hS, hNS]
      exact ⟨rfl, rfl⟩
    | msiArrive => exact absurd rfl harr
    | msiDone err => exact absurd rfl (hdone err)
    | strayEnd k reaches => exact absurd rfl (hstray k reaches)
    | access _ | splitHalf _ | count _ _ | monitorUpdate _ _ _ _ | takeEffect _ | cycle _ | chainLo _
    | snapReq => exact absurd rfl hi

theorem msiDone_sent (s : State) (err : Bool) : (s.msiDone err).sent = s.sent := by
  by_cases hb : s.msiBusy = true
  · rw [State.msiDone_eq s err hb]
  · rw [State.msiDone, if_neg hb]

/-- Only `MsiStart` issues a message write (R358). -/
theorem take_sent {i : Input} (hstart : i ≠ .msiStart) (h : s.take i = .next t) : t.sent = s.sent := by
  by_cases hi : i.onlyRegisters = true
  · exact (congrArg State.sent (take_registers hi h) :)
  · cases i with
    | settle => cases h; rfl
    | reset => cases h; rfl
    | setEnv env => cases h; rfl
    | msiArrive => cases h; rw [State.msiArrive_eq]
    | msiDone err => cases h; exact msiDone_sent s err
    | strayEnd k reaches => cases h; rw [State.strayEnd_eq]
    | msiStart => exact absurd rfl hstart
    | access _ | splitHalf _ | count _ _ | monitorUpdate _ _ _ _ | takeEffect _ | cycle _ | chainLo _
    | snapReq => exact absurd rfl hi

/-- A message write that reaches its target lands, whatever else of the state changes beside memory (R93). -/
theorem landed_land (s : State) (m : MsiMsg) : Landed s (s.land m) m := s.land_bytes m

theorem msiArrive_of_flight {m : MsiMsg} (h : s.flight = some m) :
    s.msiArrive = { s.land m with flight := none } := by
  rw [State.msiArrive, h]

theorem msiArrive_of_none (h : s.flight = none) : s.msiArrive = s := by
  rw [State.msiArrive, h]

theorem strayEnd_of_some {k : Nat} {m : MsiMsg} (h : s.strays[k]? = some m) (reaches : Bool) :
    s.strayEnd k reaches = { (if reaches then s.land m else s) with strays := s.strays.eraseIdx k } := by
  rw [State.strayEnd, h]
  cases reaches <;> rfl

theorem strayEnd_of_none {k : Nat} (h : s.strays.length ≤ k) (reaches : Bool) : s.strayEnd k reaches = s := by
  rw [State.strayEnd, List.getElem?_eq_none h]

/-- Settles O40: memory and the messages issued step by step, then the two ends of a message write. -/
theorem onlyArrivingMessagesWriteMemory : Obligations.OnlyArrivingMessagesWriteMemory := by
  unfold Obligations.OnlyArrivingMessagesWriteMemory
  refine ⟨fun i s t => take_memory, fun i s t => take_sent, fun s m h => ?_, fun s h => ?_,
    fun s k m reaches h => ?_, fun s k reaches h => ?_⟩
  · refine ⟨_, congrArg Host.Outcome.next (msiArrive_of_flight h), landed_land s m, rfl⟩
  · exact congrArg Host.Outcome.next (msiArrive_of_none h)
  · refine ⟨_, congrArg Host.Outcome.next (strayEnd_of_some h reaches), ?_, ?_, ?_⟩
    · rintro rfl; exact landed_land s m
    · rintro rfl; exact fun _ => ⟨rfl, rfl⟩
    · cases reaches <;> rfl
  · exact congrArg Host.Outcome.next (strayEnd_of_none h reaches)

end Sys2Proof.Machine
end

section
/-! Writes of monitor registers: ignored, waiting, and taking effect (R85 to R88, R236, R237). -/

set_option Elab.async false

namespace Sys2Proof.Machine

variable {s : State} {r q : MonReg} {n : Nat}

/-! ### Pending writes -/

theorem newest_append_eq_or (r : MonReg) (a b : List PendEntry) :
    newest r (a ++ b) = (newest r b).or (newest r a) := by
  induction a with
  | nil => cases h : newest r b <;> simp [newest, h]
  | cons p a ih =>
    rw [List.cons_append, newest, ih, newest]
    cases newest r b <;> cases newest r a <;> rfl

theorem newest_eq_none {l : List PendEntry} (h : ∀ p ∈ l, p.reg ≠ r) : newest r l = none := by
  induction l with
  | nil => rfl
  | cons p l ih =>
    obtain ⟨hp, hl⟩ := List.forall_mem_cons.1 h
    simp only [newest, ih hl, if_neg hp]

/-- The oldest entry of a register is the one with no other before it (R86). -/
theorem takeOldest_eq_some {l rest : List PendEntry} {v : DWord} :
    takeOldest r l = some (v, rest)
      ↔ ∃ a b, l = a ++ ⟨r, v⟩ :: b ∧ rest = a ++ b ∧ ∀ p ∈ a, p.reg ≠ r := by
  constructor
  · intro h
    induction l generalizing rest with
    | nil => cases h
    | cons p l ih =>
      rw [takeOldest] at h
      split at h
      · rename_i hp
        cases h
        exact ⟨[], l, by rw [← hp]; rfl, rfl, List.forall_mem_nil _⟩
      · rename_i hp
        split at h
        · rename_i w m hm
          cases h
          obtain ⟨a, b, rfl, rfl, ha⟩ := ih hm
          exact ⟨p :: a, b, rfl, rfl, List.forall_mem_cons.2 ⟨hp, ha⟩⟩
        · cases h
  · rintro ⟨a, b, rfl, rfl, ha⟩
    induction a with
    | nil => simp [takeOldest]
    | cons p a ih =>
      obtain ⟨hp, ha⟩ := List.forall_mem_cons.1 ha
      simp [takeOldest, hp, ih ha]

/-- Taking a register's oldest entry leaves the newest entry of it, unless it was the only one (R87). -/
theorem newest_takeOldest {l rest : List PendEntry} {v : DWord} (h : takeOldest r l = some (v, rest)) :
    newest r l = some ((newest r rest).getD v) := by
  obtain ⟨a, b, rfl, rfl, ha⟩ := takeOldest_eq_some.1 h
  rw [newest_append_eq_or, newest_append_eq_or, newest, newest_eq_none ha]
  cases newest r b <;> simp

theorem newest_takeOldest_ne (hq : q ≠ r) {l rest : List PendEntry} {v : DWord}
    (h : takeOldest r l = some (v, rest)) : newest q rest = newest q l := by
  obtain ⟨a, b, rfl, rfl, -⟩ := takeOldest_eq_some.1 h
  rw [newest_append_eq_or, newest_append_eq_or, newest]
  cases newest q b <;> simp [hq.symm]

theorem readMonitorReg_of_newest {v : DWord} (h : newest r s.pend = some v) : s.readMonitorReg r = v := by
  rw [State.readMonitorReg, h]

theorem readMonitorReg_of_none (h : newest r s.pend = none) : s.readMonitorReg r = s.stored r := by
  rw [State.readMonitorReg, h]

/-! ### Held-back updates and commits -/

theorem chainLo_xAt_ne {k : Nat} (h : k ≠ n) : (s.chainLo n).xAt k = s.xAt k := by
  unfold State.chainLo
  split
  · rfl
  · simp [Ne.symm h]

theorem chainLo_lowAt (k : Nat) : (s.chainLo n).lowAt k = if n = k then 0 else s.lowAt k := by
  unfold State.chainLo
  split
  · split
    · rename_i h hk; rw [← hk, h]
    · rfl
  · simp

theorem chainLo_ovsBit (k : Nat) : (s.chainLo n).ovsBit k
    = (s.ovsBit k || (decide (k = n ∧ k < 256) && decide (s.lowAt n ≠ 0))) := by
  unfold State.chainLo
  split
  · rename_i h; simp [h]
  · rename_i h
    simp [State.ovsBit, h, eq_comm, Bool.and_comm]

theorem commit_pend (s : State) (r : MonReg) (v : DWord) : (s.commit r v).pend = s.pend := by
  cases r with
  | cntr n => rw [State.commit_cntr_eq]
  | typer n => rfl
  | filtr n => rfl

theorem commit_cntr_xAt (s : State) (n k : Nat) (v : DWord) :
    (s.commit (.cntr n) v).xAt k = if n = k then v else s.xAt k := by
  have written : (s.commit (.cntr n) v).xAt k = ((s.chainLo n).putX n v).xAt k := by
    rw [State.commit_cntr_eq]; rfl
  rw [written, State.putX_xAt]
  split
  · rfl
  · rename_i h; rw [chainLo_xAt_ne (Ne.symm h)]

theorem commit_cntr_lowAt (s : State) (n k : Nat) (v : DWord) :
    (s.commit (.cntr n) v).lowAt k = if n = k then 0 else s.lowAt k := by
  have held : (s.commit (.cntr n) v).lowAt k = (s.chainLo n).lowAt k := by
    rw [State.commit_cntr_eq]; rfl
  rw [held, chainLo_lowAt]

theorem commit_cntr_ovsBit (s : State) (n k : Nat) (v : DWord) : (s.commit (.cntr n) v).ovsBit k
    = (s.ovsBit k || (decide (k = n ∧ k < 256) && decide (s.lowAt n ≠ 0))) := by
  have flagged : (s.commit (.cntr n) v).ovsBit k = (s.chainLo n).ovsBit k := by
    rw [State.commit_cntr_eq]; rfl
  rw [flagged, chainLo_ovsBit]

/-- Only a commit of the cycle counter, with a prescaler, uses a free value (R193). -/
theorem commit_cntr_presc (v : DWord) (h : (s.cfg.isCycle n && s.cfg.ccd) = false) :
    (s.commit (.cntr n) v).presc = s.presc ∧ (s.commit (.cntr n) v).draws = s.draws := by
  have noPrescaler : ¬ (s.cfg.isCycle n && (s.cfg.cc && s.cfg.ccd)) = true := by
    cases hc : s.cfg.isCycle n <;> simp_all
  rw [State.commit_cntr_eq]
  exact ⟨if_neg noPrescaler, if_neg noPrescaler⟩

theorem takeEffect_of_pend {v : DWord} {l rest : List PendEntry} (h : s.pend = l ++ ⟨r, v⟩ :: rest)
    (hl : ∀ p ∈ l, p.reg ≠ r) : s.takeEffect r = State.commit { s with pend := l ++ rest } r v := by
  rw [State.takeEffect, takeOldest_eq_some.2 ⟨l, rest, h, rfl, hl⟩]

/-- Settles O21: taking effect is a commit of the oldest pending value, on the state without its entry. -/
theorem takeEffectCommitsOldestWrite : Obligations.TakeEffectCommitsOldestWrite := by
  unfold Obligations.TakeEffectCommitsOldestWrite
  intro s r v l rest hp hl
  refine ⟨_, congrArg Host.Outcome.next (takeEffect_of_pend hp hl), ?_⟩
  cases r with
  | cntr n =>
    refine ⟨?_, fun k hk => ?_, ?_, fun k hk => ?_, fun k => ?_, fun hp => ?_, ?_⟩
    · rw [commit_cntr_xAt, if_pos rfl]
    · rw [commit_cntr_xAt, if_neg (Ne.symm hk)]; rfl
    · rw [commit_cntr_lowAt, if_pos rfl]
    · rw [commit_cntr_lowAt, if_neg (Ne.symm hk)]; rfl
    · rw [commit_cntr_ovsBit]; rfl
    · exact commit_cntr_presc (s := { s with pend := l ++ rest }) v hp
    · rw [State.commit_cntr_eq]
  | typer n =>
    refine ⟨?_, fun k hk => ?_, rfl⟩
    · rw [State.commit, State.putTyper_typerAt, if_pos rfl]
    · rw [State.commit, State.putTyper_typerAt, if_neg (Ne.symm hk)]; rfl
  | filtr n =>
    refine ⟨?_, fun k hk => ?_, rfl⟩
    · rw [State.commit, State.putFiltr_filtrAt, if_pos rfl]
    · rw [State.commit, State.putFiltr_filtrAt, if_neg (Ne.symm hk)]; rfl

/-- A counter with a pending write reads the same after any register's oldest write takes effect (R86, R87). -/
theorem takeEffect_keeps_read {v : DWord} (h : newest (.cntr n) s.pend = some v) (r : MonReg) :
    (s.takeEffect r).readMonitorReg (.cntr n) = v := by
  unfold State.takeEffect
  split
  · rename_i w rest hw
    by_cases hr : r = .cntr n
    · subst hr
      rw [newest_takeOldest hw] at h
      cases hn : newest (.cntr n) rest with
      | some u =>
        rw [readMonitorReg_of_newest (v := u) (by rw [commit_pend, hn])]
        simpa [hn] using h
      | none =>
        rw [readMonitorReg_of_none (by rw [commit_pend, hn]), State.stored, commit_cntr_xAt, if_pos rfl]
        simpa [hn] using h
    · exact readMonitorReg_of_newest (by rw [commit_pend, newest_takeOldest_ne (Ne.symm hr) hw, h])
  · exact readMonitorReg_of_newest h

/-- Of the core's steps, only a write that takes effect ends a pending write. -/
theorem take_pend {t : State} {i : Input} (hc : i.isCore = true) (hi : ∀ r, i ≠ .takeEffect r)
    (h : s.take i = .next t) : t.pend = s.pend := by
  cases i with
  | settle => cases h; rfl
  | count n e => cases h; exact pend_of_counts (count_counts s n e)
  | monitorUpdate n v ovf e => cases h; exact pend_of_counts (monitorUpdate_counts s n v ovf e)
  | takeEffect r => exact absurd rfl (hi r)
  | cycle c => cases h; exact pend_of_counts (cycle_counts s c)
  | chainLo n => cases h; exact pend_of_counts (chainLo_counts s n)
  | snapReq => cases h; exact pend_of_counts (snapReq_counts s)
  | msiStart =>
    cases h
    unfold State.msiStart
    split <;> rfl
  | msiDone err =>
    cases h
    by_cases hb : s.msiBusy = true
    · rw [State.msiDone_eq s err hb]
    · rw [State.msiDone, if_neg hb]
  | msiArrive => cases h; rw [State.msiArrive_eq]
  | strayEnd k reaches => cases h; rw [State.strayEnd_eq]
  | access _ | splitHalf _ | reset | setEnv _ => cases hc

/-- Settles O20: the pending write stays the newest, or it has just been stored. -/
theorem pendingCounterWriteIsNotLost : Obligations.PendingCounterWriteIsNotLost := by
  unfold Obligations.PendingCounterWriteIsNotLost
  intro s t n v i hv hc h
  by_cases hi : ∃ r, i = .takeEffect r
  · obtain ⟨r, rfl⟩ := hi
    cases h
    exact takeEffect_keeps_read hv r
  · have kept := take_pend hc (fun r hr => hi ⟨r, hr⟩) h
    exact readMonitorReg_of_newest (by rw [kept, hv])

/-! ### Accepted writes that wait -/

/-- Leaving the prescaler phase open changes at most that phase and the count of free values (R193). -/
theorem reopenPresc_eq (s : State) (r : MonReg) : s.reopenPresc r =
    { s with presc := (s.reopenPresc r).presc, draws := (s.reopenPresc r).draws } := by
  cases r with
  | cntr n =>
    rw [State.reopenPresc]
    split
    · rw [State.redrawPresc_eq]
    · rfl
  | typer n => rfl
  | filtr n => rfl

theorem reopenPresc_of_ne (h : r ≠ .cntr 31) : s.reopenPresc r = s := by
  cases r with
  | cntr n =>
    have hn : n ≠ 31 := fun e => h (e ▸ rfl)
    simp [State.reopenPresc, Cfg.isCycle, hn]
  | typer n => rfl
  | filtr n => rfl

theorem writeMonitorReg_of_defers (h : s.defers) (hw : r.writable s.cfg = true) (v : DWord) :
    s.writeMonitorReg r v = { s.reopenPresc r with pend := s.pend ++ [⟨r, v⟩] } := by
  obtain ⟨hna, hstop⟩ := h
  have later : s.storesNow = false := by
    rw [Bool.eq_false_iff]
    intro now
    obtain ⟨hop, hna' | hst⟩ := State.storesNow_eq_true.1 now
    · rw [hna] at hna'; cases hna'
    · exact hstop ⟨hop, hst⟩
  simp [State.writeMonitorReg, hw, hna, later]

/-- An accepted write that waits is pending when its access has been answered (R236). -/
theorem writePending_of_defers (h : s.defers) (hw : r.writable s.cfg = true) (v : DWord) :
    WritePending s ((s.writeMonitorReg r v).answer .done) r v := by
  rw [writeMonitorReg_of_defers h hw]
  refine ⟨readMonitorReg_of_newest (newest_append r s.pend v), fun q hq => ?_, fun hr => ?_, ?_⟩
  · have other := newest_append_ne (Ne.symm hq) s.pend v
    rw [reopenPresc_eq]
    simp only [State.readMonitorReg, State.answer_pend, other]
    rfl
  · rw [reopenPresc_of_ne hr]
    exact ⟨rfl, rfl⟩
  · rw [reopenPresc_eq]
    rfl

/-! ### The writes of each register's halves -/

theorem readCounter_of_impl (h : s.cfg.impl n = true) : s.readCounter n = s.readMonitorReg (.cntr n) :=
  if_pos h

theorem writeCounter_of_impl (h : s.cfg.impl n = true) (v : DWord) :
    s.writeCounter n v = s.writeMonitorReg (.cntr n) (s.cfg.wrap n v.toNat) :=
  if_pos h

theorem counter32_wr (hw : s.cfg.wide = false) (hi : s.cfg.impl n = true) (v : Word) :
    (counter32 n).wr v s = s.writeMonitorReg (.cntr n) (s.cfg.wrap n v.toNat) := by
  have toNat_wide : (v.setWidth 64).toNat = v.toNat := BitVec.toNat_setWidth_of_le (by omega)
  simp only [counter32, hw, Bool.false_eq_true, if_false, writeCounter_of_impl hi, toNat_wide]

theorem counterLo_wr (hw : s.cfg.wide = true) (hi : s.cfg.impl n = true) (v : Word) :
    (counterLo n).wr v s = s.writeMonitorReg (.cntr n)
      (s.cfg.wrap n ((s.readMonitorReg (.cntr n)).extractLsb' 32 32 ++ v).toNat) := by
  simp only [counterLo, hw, if_true, writeCounter_of_impl hi, readCounter_of_impl hi]

theorem counterHi_wr (hw : s.cfg.wide = true) (hi : s.cfg.impl n = true) (v : Word) :
    (counterHi n).wr v s = s.writeMonitorReg (.cntr n)
      (s.cfg.wrap n (v ++ (s.readMonitorReg (.cntr n)).extractLsb' 0 32).toNat) := by
  simp only [counterHi, hw, if_true, writeCounter_of_impl hi, readCounter_of_impl hi]

theorem counterBoth_wr (hw : s.cfg.wide = true) (hi : s.cfg.impl n = true) (v : DWord) :
    counterBoth n v s = s.writeMonitorReg (.cntr n) (s.cfg.wrap n v.toNat) := by
  simp only [counterBoth, hw, if_true, writeCounter_of_impl hi]

theorem typerHalf_wr (h : s.cfg.hasTyper n = true) (v : Word) :
    (typerHalf n).wr v s = s.writeMonitorReg (.typer n) ((s.cfg.typerValue n v).setWidth 64) :=
  if_pos h

theorem filtrHalf_wr (h : s.cfg.hasFiltr n = true) (v : Word) :
    (filtrHalf n).wr v s = s.writeMonitorReg (.filtr n) ((s.cfg.filtrValue n v).setWidth 64) :=
  if_pos h

theorem hasTyper_of_typerWritable {c : Cfg} (h : c.typerWritable n = true) : c.hasTyper n = true := by
  obtain ⟨m, hm, hw⟩ := Cfg.monIs_eq_true.1 h
  exact Cfg.monIs_eq_true.2 ⟨m, hm, (Bool.and_eq_true_iff.1 hw).1⟩

theorem hasFiltr_of_filtrWritable {c : Cfg} (h : c.filtrWritable n = true) : c.hasFiltr n = true := by
  obtain ⟨m, hm, hw⟩ := Cfg.monIs_eq_true.1 h
  exact Cfg.monIs_eq_true.2 ⟨m, hm, (Bool.and_eq_true_iff.1 hw).1⟩

/-- A 32-bit write whose location makes an accepted write of a monitor register, while those wait. -/
theorem exec_wr32_pending {i : Instr} {v : Word} {w : DWord} (hd : s.defers) (hr : r.writable s.cfg = true)
    (hop : i.access.op = .wr32 v) (h : (i.half s.cfg).wr v s = s.writeMonitorReg r w) :
    ∃ t, exec i s = .next t ∧ WritePending s t r w := by
  refine ⟨_, exec_wr32 hop, ?_⟩
  rw [Half.write, h]
  exact writePending_of_defers hd hr w

/-- Settles O17: in every form the access is one write of the monitor register, which waits. -/
theorem runningWritePends : Obligations.RunningWritePends := by
  unfold Obligations.RunningWritePends
  intro s n p ns v d h
  refine ⟨fun hi hc => ?_, fun ht => ?_, fun hf => ?_⟩
  · have hr : (MonReg.cntr n).writable s.cfg = true := hc
    refine ⟨fun hw => ?_, fun hw => ⟨?_, ?_, fun hat => ?_⟩⟩
    · exact exec_wr32_pending h hr rfl (counter32_wr hw hi v)
    · exact exec_wr32_pending h hr rfl (counterLo_wr hw hi v)
    · exact exec_wr32_pending h hr rfl (counterHi_wr hw hi v)
    · refine ⟨_, exec_wr64_atomic rfl hat rfl, ?_⟩
      rw [Instr.writeBoth, counterBoth_wr hw hi]
      exact writePending_of_defers h hr _
  · have hr : (MonReg.typer n).writable s.cfg = true := ht
    exact exec_wr32_pending h hr rfl (typerHalf_wr (hasTyper_of_typerWritable ht) v)
  · have hr : (MonReg.filtr n).writable s.cfg = true := hf
    exact exec_wr32_pending h hr rfl (filtrHalf_wr (hasFiltr_of_filtrWritable hf) v)

/-! ### Ignored writes -/

theorem writeMonitorReg_of_ignores (h : s.ignores r) (v : DWord) : s.writeMonitorReg r v = s := by
  unfold State.writeMonitorReg
  obtain hw | ⟨hna, hop⟩ := h
  · simp [hw]
  · simp [hna, hop]

theorem writeCounter_ignored (h : s.ignores (.cntr n) ∨ s.cfg.impl n = false) (v : DWord) :
    s.writeCounter n v = s := by
  unfold State.writeCounter
  split
  · rename_i hi
    obtain hs | hi' := h
    · exact writeMonitorReg_of_ignores hs _
    · rw [hi] at hi'; cases hi'
  · rfl

theorem counter32_ignored (h : s.ignores (.cntr n) ∨ s.cfg.impl n = false) (v : Word) :
    (counter32 n).wr v s = s := by
  simp only [counter32, writeCounter_ignored h, ite_self]

theorem counterLo_ignored (h : s.ignores (.cntr n) ∨ s.cfg.impl n = false) (v : Word) :
    (counterLo n).wr v s = s := by
  simp only [counterLo, writeCounter_ignored h, ite_self]

theorem counterHi_ignored (h : s.ignores (.cntr n) ∨ s.cfg.impl n = false) (v : Word) :
    (counterHi n).wr v s = s := by
  simp only [counterHi, writeCounter_ignored h, ite_self]

theorem counterBoth_ignored (h : s.ignores (.cntr n) ∨ s.cfg.impl n = false) (v : DWord) :
    counterBoth n v s = s := by
  simp only [counterBoth, writeCounter_ignored h, ite_self]

theorem typerHalf_ignored (h : s.ignores (.typer n) ∨ s.cfg.hasTyper n = false) (v : Word) :
    (typerHalf n).wr v s = s := by
  obtain hs | ht := h
  · simp only [typerHalf, writeMonitorReg_of_ignores hs, ite_self]
  · simp [typerHalf, ht]

theorem filtrHalf_ignored (h : s.ignores (.filtr n) ∨ s.cfg.hasFiltr n = false) (v : Word) :
    (filtrHalf n).wr v s = s := by
  obtain hs | ht := h
  · simp only [filtrHalf, writeMonitorReg_of_ignores hs, ite_self]
  · simp [filtrHalf, ht]

/-- A 32-bit write that its location ignores is only answered. -/
theorem exec_wr32_ignored {i : Instr} {v : Word} (hop : i.access.op = .wr32 v)
    (h : (i.half s.cfg).wr v s = s) : exec i s = .next (s.answer .done) := by
  rw [exec_wr32 hop, Half.write, h]

/-- Settles O18: in every form the access is one write of the monitor register, or of none, which is ignored. -/
theorem ignoredMonitorWrites : Obligations.IgnoredMonitorWrites := by
  unfold Obligations.IgnoredMonitorWrites
  intro s n p ns v d
  refine ⟨fun h => ⟨?_, ?_, ?_, fun hat => ?_⟩, fun h => ?_, fun h => ?_⟩
  · exact exec_wr32_ignored rfl (counter32_ignored h v)
  · exact exec_wr32_ignored rfl (counterLo_ignored h v)
  · exact exec_wr32_ignored rfl (counterHi_ignored h v)
  · rw [exec_wr64_atomic rfl hat rfl, Instr.writeBoth, counterBoth_ignored h]
  · exact exec_wr32_ignored rfl (typerHalf_ignored h v)
  · exact exec_wr32_ignored rfl (filtrHalf_ignored h v)

end Sys2Proof.Machine
end

section
/-! The arrival of an access (R84): what decodes is run, what does not or is gated is refused, and which locations
are reserved (R82, R89, R94, R120). -/

set_option Elab.async false

namespace Sys2Proof.Machine

variable {c : Cfg} {s : State} {frame : List Byte} {rest : List Input}

/-! ### Arrival -/

theorem decode_eq_ok {d : Decoded} :
    decode c frame = .ok d ↔ ∃ r, parseFrame frame = .ok r ∧ decodeRaw c r = .ok d := by
  unfold decode
  cases parseFrame frame with
  | ok r => simp
  | error e => simp

theorem step_access (hwf : s.cfg.wf = true) (hin : s.inputs = .access frame :: rest) :
    step s = afterStep (State.arrive { s with inputs := rest } frame) := by
  rw [step, if_pos hwf, State.advance, hin]
  rfl

theorem arrive_of_instr {i : Instr} (hg : ∀ r, parseFrame frame = .ok r → s.gated r = false)
    (h : decode s.cfg frame = .ok (.instr i)) : s.arrive frame = exec i s := by
  obtain ⟨r, hr, hd⟩ := decode_eq_ok.1 h
  simp [State.arrive, hr, hg r hr, hd]

theorem arrive_of_reserved {a : Access} (hg : ∀ r, parseFrame frame = .ok r → s.gated r = false)
    (h : decode s.cfg frame = .ok (.reserved a)) : s.arrive frame = .next (s.reservedAccess a) := by
  obtain ⟨r, hr, hd⟩ := decode_eq_ok.1 h
  simp [State.arrive, hr, hg r hr, hd]

theorem arrive_of_error {e : DecodeError} (hg : ∀ r, parseFrame frame = .ok r → s.gated r = false)
    (h : decode s.cfg frame = .error e) : s.arrive frame = .refused (.badAccess e) := by
  unfold decode at h
  cases hr : parseFrame frame with
  | error e' =>
    rw [hr] at h
    cases h
    simp [State.arrive, hr]
  | ok r =>
    rw [hr] at h
    simp [State.arrive, hr, hg r hr, show decodeRaw s.cfg r = .error e from h]

theorem arrive_of_gated {r : RawAccess} (hr : parseFrame frame = .ok r) (hg : s.gated r = true) :
    s.arrive frame = .refused .accessGated := by
  simp [State.arrive, hr, hg]

/-- Settles O4: the input is taken off the list, and the arrival runs the instruction. -/
theorem stepRunsDecodedInstruction : Obligations.StepRunsDecodedInstruction := by
  unfold Obligations.StepRunsDecodedInstruction
  intro s i frame rest hwf hin hd hg
  rw [step_access hwf hin, arrive_of_instr (s := { s with inputs := rest }) hg hd]

/-! ### Refusals -/

theorem mod_four_ne_zero {b : Byte} (h : b.getLsbD 0 = true ∨ b.getLsbD 1 = true) : b.toNat % 4 ≠ 0 := by
  simp only [BitVec.getLsbD, Nat.testBit_eq_decide_div_mod_eq, decide_eq_true_eq] at h
  omega

/-- A frame of 8 or 16 bits, or at an offset that is not word aligned, is no access (R74). -/
theorem parseFrame_error {b0 b1 b2 b3 v0 v1 v2 v3 v4 v5 v6 v7 : Byte}
    (h : b2.getLsbD 3 = true ∨ b0.getLsbD 0 = true ∨ b0.getLsbD 1 = true) :
    ∃ e, parseFrame [b0, b1, b2, b3, v0, v1, v2, v3, v4, v5, v6, v7] = .error e := by
  unfold parseFrame
  dsimp only
  split
  · exact ⟨_, rfl⟩
  · split
    · exact ⟨_, rfl⟩
    · rename_i hsize
      have misaligned : (b0.toNat + 256 * b1.toNat) % 4 ≠ 0 := by
        have := mod_four_ne_zero (h.resolve_left hsize)
        omega
      rw [if_pos misaligned]
      exact ⟨_, rfl⟩

theorem admitsField_eq_true {field : Option Bool} {b : Bool} :
    admitsField field b = true ↔ ∀ x, field = some x → x = b := by
  cases field <;> simp [admitsField]

/-- Some byte of the access lies in the range of a gate's term (R89). -/
theorem any_byte_in_range {op : AccOp} {off lo hi : Nat} :
    (List.range (accBytes op)).any (fun b => decide (lo ≤ off + b ∧ off + b ≤ hi)) = true
      ↔ ∃ b, off ≤ b ∧ b < off + (if op.is64 then 8 else 4) ∧ lo ≤ b ∧ b ≤ hi := by
  simp only [List.any_eq_true, List.mem_range, decide_eq_true_eq, accBytes]
  constructor
  · rintro ⟨k, hk, hlo, hhi⟩
    exact ⟨off + k, by omega, by omega, hlo, hhi⟩
  · rintro ⟨b, hoff, hlt, hlo, hhi⟩
    exact ⟨b - off, by omega, by omega, by omega⟩

theorem gateForbids_eq_true {d : Deny} {env : Env} {r : RawAccess} : gateForbids d env r = true ↔
    (∃ b, r.off ≤ b ∧ b < r.off + (if r.access.op.is64 then 8 else 4) ∧ d.lo ≤ b ∧ b ≤ d.hi)
    ∧ (∀ x, d.page1 = some x → (x = true ↔ r.access.page = .p1))
    ∧ (∀ x, d.ns = some x → x = r.access.ns) ∧ (∀ x, d.write = some x → x = r.access.op.isWrite)
    ∧ (∀ x, d.wide = some x → x = r.access.op.is64)
    ∧ valueField r.access.op &&& d.valueMask = d.valueIs
    ∧ ∀ p ∈ d.envIs, env.bit p.1 = p.2 := by
  simp only [gateForbids, Bool.and_eq_true, any_byte_in_range, admitsField_eq_true, List.all_eq_true,
    beq_iff_eq, Bool.eq_iff_iff (b := r.access.page == .p1), and_assoc]

theorem gated_eq_true {r : RawAccess} :
    s.gated r = true ↔ ∃ d ∈ s.cfg.gate, gateForbids d s.env r = true :=
  List.any_eq_true

/-- Settles O5: the arrival's refusals, the frames the parser rejects, the sizes `exec` refuses, and the gate's
terms one condition at a time. -/
theorem unsupportedAndGatedAccessesRefused : Obligations.UnsupportedAndGatedAccessesRefused := by
  unfold Obligations.UnsupportedAndGatedAccessesRefused
  refine ⟨fun s e frame rest hwf hin hd hg => ?_, fun c b0 b1 b2 b3 v0 v1 v2 v3 v4 v5 v6 v7 h => ?_,
    fun i s => exec_unsupported, fun s r frame rest hwf hin hr hg => ?_, fun s r => ?_⟩
  · rw [step_access hwf hin, arrive_of_error (s := { s with inputs := rest }) hg hd]
    rfl
  · obtain ⟨e, he⟩ := parseFrame_error (b1 := b1) (b3 := b3) (v0 := v0) (v1 := v1) (v2 := v2) (v3 := v3)
      (v4 := v4) (v5 := v5) (v6 := v6) (v7 := v7) h
    exact ⟨e, by rw [decode, he]⟩
  · rw [step_access hwf hin, arrive_of_gated (s := { s with inputs := rest }) hr hg]
    rfl
  · simp only [gated_eq_true, gateForbids_eq_true]

/-! ### Reserved locations -/

theorem reservedAccess_eq (s : State) (a : Access) :
    s.reservedAccess a = s.answer (if a.op.isWrite then .done else .data32 0) := by
  unfold State.reservedAccess
  split <;> rfl

/-- The holes of the map among the fixed offsets (R120). -/
theorem fixedRow_hole {off : Nat}
    (h : (0xE0C ≤ off ∧ off < 0xE20) ∨ off = 0xE34 ∨ (0xE40 ≤ off ∧ off < 0xE80)
      ∨ (0xE90 ≤ off ∧ off < 0xEF8) ∨ (0xF00 ≤ off ∧ off < 0xFA8) ∨ (0xFB0 ≤ off ∧ off < 0xFB8)
      ∨ (0xFC0 ≤ off ∧ off < 0xFC8)) :
    fixedRow off = none := by
  have unlisted : ∀ p ∈ fixedRows, p.1 ≠ off := by
    simp only [fixedRows, List.forall_mem_cons, List.not_mem_nil, false_implies, implies_true, and_true]
    omega
  simpa [fixedRow] using unlisted

theorem rowOf_of_fixed {off : Nat} (h : 0xE00 ≤ off) (hceid : ¬ (0xE20 ≤ off ∧ off < 0xE30)) :
    rowOf c off = fixedRow off := by
  simp (disch := omega) only [rowOf, if_neg]

/-- No row of the map has an offset of one of its holes (R120). -/
theorem rowOf_hole {off : Nat}
    (h : (0x800 ≤ off ∧ off < 0xA00) ∨ (0xCA0 ≤ off ∧ off < 0xCC0) ∨ (0xCF0 ≤ off ∧ off < 0xD80)
      ∨ (0xE0C ≤ off ∧ off < 0xE20) ∨ off = 0xE34 ∨ (0xE40 ≤ off ∧ off < 0xE80)
      ∨ (0xE90 ≤ off ∧ off < 0xEF8) ∨ (0xF00 ≤ off ∧ off < 0xFA8) ∨ (0xFB0 ≤ off ∧ off < 0xFB8)
      ∨ (0xFC0 ≤ off ∧ off < 0xFC8) ∨ (c.ss = true ∧ 0x700 ≤ off ∧ off < 0x800)) :
    rowOf c off = none := by
  rcases h with h | h | h | h | h | h | h | h | h | h | ⟨hss, h⟩
  iterate 3 · simp (disch := omega) only [rowOf, if_neg, if_pos]
  iterate 7 · rw [rowOf_of_fixed (by omega) (by omega), fixedRow_hole (by omega)]
  · simp (disch := omega) only [rowOf, if_neg, if_pos, hss, if_true]

theorem decodeRaw_of_no_row {r : RawAccess} (hp : r.access.page = .p1 → c.dual = true)
    (hop : r.access.op.is64 = false) (h : rowOf c r.off = none) :
    decodeRaw c r = .ok (.reserved r.access) := by
  have page : ¬ (r.access.page = .p1 ∧ c.dual = false) := by
    rintro ⟨h1, h2⟩
    rw [hp h1] at h2
    cases h2
  simp only [decodeRaw, if_neg page, h, hop]
  rfl

/-- A 32-bit access to a location whose register, if it has one, is not in the page accessed (R94). -/
theorem decodeRaw_of_other_page {r : RawAccess} (hd : c.dual = true) (hop : r.access.op.is64 = false)
    (h : ∀ row, rowOf c r.off = some row → ((row r.access).pages c).admits true r.access.page = false) :
    decodeRaw c r = .ok (.reserved r.access) := by
  cases hrow : rowOf c r.off with
  | none => exact decodeRaw_of_no_row (fun _ => hd) hop hrow
  | some row => simp [decodeRaw, hrow, hd, h row hrow, hop]

theorem counterRow_pages (c : Cfg) (off : Nat) (a : Access) : (counterRow c off a).pages c = .page1 := by
  unfold counterRow
  split_ifs <;> rfl

theorem svrRow_pages (c : Cfg) (k : Nat) (a : Access) : (svrRow c k a).pages c = .page1 := by
  unfold svrRow
  cases c.svrSlot k <;> rfl

/-- The locations of the registers that only Page 1 has (R118). -/
theorem rowOf_pages_page1 {off : Nat} (a : Access)
    (h : off < 0x400 ∨ (c.ss = true ∧ 0x600 ≤ off ∧ off < 0x700) ∨ (0xC80 ≤ off ∧ off < 0xCA0)
      ∨ (0xCC0 ≤ off ∧ off < 0xCE0)) :
    ∀ row, rowOf c off = some row → (row a).pages c = .page1 := by
  obtain h | ⟨hss, h⟩ | h | h := h
  · simp (disch := omega) only [rowOf, if_pos, Option.some.injEq, forall_eq', counterRow_pages]
  · simp (disch := omega) only [rowOf, if_neg, if_pos, hss, if_true, Option.some.injEq, forall_eq', svrRow_pages]
  · simp (disch := omega) only [rowOf, if_neg, if_pos, Option.some.injEq, forall_eq', Instr.pages]
  · simp (disch := omega) only [rowOf, if_neg, if_pos, Option.some.injEq, forall_eq', Instr.pages]

theorem fixedRow_mem {off : Nat} {row : Access → Instr} (h : fixedRow off = some row) :
    (off, row) ∈ fixedRows := by
  obtain ⟨p, hp, rfl⟩ := Option.map_eq_some_iff.1 h
  have found : p.1 = off := by simpa using List.find?_some hp
  exact found ▸ List.mem_of_find?_eq_some hp

/-- Which of the fixed offsets are those of registers that only Page 0 has (R117). -/
theorem fixedRows_page0 (c : Cfg) (a : Access) : ∀ p ∈ fixedRows,
    p.1 = 0xE04 ∨ (0xE20 ≤ p.1 ∧ p.1 < 0xF00) ∨ p.1 = 0xFB8 → (p.2 a).pages c = .page0 := by
  simp [fixedRows, Instr.pages]

theorem selectRow_pages (c : Cfg) (n : Nat) (a : Access) :
    ((if c.isCycle n then Instr.pmccfiltr else .pmevtyper n) a).pages c = .page0 := by
  split <;> rfl

theorem rowOf_pages_page0_of_high {off : Nat} (a : Access)
    (h : off = 0xE04 ∨ (0xE20 ≤ off ∧ off < 0xF00) ∨ off = 0xFB8) :
    ∀ row, rowOf c off = some row → (row a).pages c = .page0 := by
  by_cases ceid : 0xE20 ≤ off ∧ off < 0xE30
  · simp (disch := omega) only [rowOf, if_neg, if_pos, Option.some.injEq, forall_eq', Instr.pages]
  · intro row hrow
    rw [rowOf_of_fixed (by omega) ceid] at hrow
    exact fixedRows_page0 c a _ (fixedRow_mem hrow) h

/-- The locations of the registers that only Page 0 has (R117). -/
theorem rowOf_pages_page0 {off : Nat} (a : Access)
    (h : (0x400 ≤ off ∧ off < 0x600) ∨ (c.ss = false ∧ 0x600 ≤ off ∧ off < 0x800)
      ∨ (0xA00 ≤ off ∧ off < 0xC80) ∨ (0xCE0 ≤ off ∧ off < 0xCF0) ∨ off = 0xE04
      ∨ (0xE20 ≤ off ∧ off < 0xF00) ∨ off = 0xFB8) :
    ∀ row, rowOf c off = some row → (row a).pages c = .page0 := by
  obtain h | ⟨hss, h⟩ | h | h | h := h
  · simp (disch := omega) only [rowOf, if_neg, if_pos, Option.some.injEq, forall_eq', selectRow_pages]
  · by_cases svr : off < 0x700
    all_goals
      simp (disch := omega) only [rowOf, if_neg, if_pos, hss, Bool.false_eq_true, if_false,
        Option.some.injEq, forall_eq', Instr.pages]
  · obtain h | h | h | h | h : (0xA00 ≤ off ∧ off < 0xC00) ∨ (0xC00 ≤ off ∧ off < 0xC20)
        ∨ (0xC20 ≤ off ∧ off < 0xC40) ∨ (0xC40 ≤ off ∧ off < 0xC60) ∨ (0xC60 ≤ off ∧ off < 0xC80) := by omega
    all_goals
      simp (disch := omega) only [rowOf, if_neg, if_pos, Option.some.injEq, forall_eq', Instr.pages]
  · simp (disch := omega) only [rowOf, if_neg, if_pos, Option.some.injEq, forall_eq', Instr.pages]
  · exact rowOf_pages_page0_of_high a h

/-- Settles O6: the answer, the holes, and the registers that only the other page has. -/
theorem reservedLocationsReadZero : Obligations.ReservedLocationsReadZero := by
  unfold Obligations.ReservedLocationsReadZero
  refine ⟨fun s a frame rest hwf hin hd hg => ?_, fun c off => rowOf_hole, fun c r => decodeRaw_of_no_row,
    fun c r hd hop h => ?_⟩
  · rw [step_access hwf hin, arrive_of_reserved (s := { s with inputs := rest }) hg hd, reservedAccess_eq]
    rfl
  · refine decodeRaw_of_other_page hd hop fun row hrow => ?_
    obtain ⟨hp, h⟩ | ⟨hp, h⟩ := h
    · rw [rowOf_pages_page1 r.access h row hrow, hp]; rfl
    · rw [rowOf_pages_page0 r.access h row hrow, hp]; rfl

end Sys2Proof.Machine
end

section
/-! The frame of an access (R111, assumption log 5): the parser accepts exactly the frames of the accesses whose
offset fits the page and is aligned, and it reads back the access. -/

set_option Elab.async false

namespace Sys2Proof.Laws

/-- The offset is one of the 4KB page, word aligned, and doubleword aligned for a 64-bit access (R70, R74). -/
structure OffsetFits (r : RawAccess) : Prop where
  inPage : r.off < 4096
  aligned : r.off % 4 = 0
  aligned64 : r.access.op.is64 = true → r.off % 8 = 0

/-! ### The offset's bytes -/

theorem offset_of_bytes {off : Nat} (h : off < 4096) :
    (BitVec.ofNat 8 off).toNat + 256 * (BitVec.ofNat 8 (off / 256)).toNat = off := by
  simp only [BitVec.toNat_ofNat]
  omega

theorem bytes_of_offset (b0 b1 : Byte) : BitVec.ofNat 8 (b0.toNat + 256 * b1.toNat) = b0
    ∧ BitVec.ofNat 8 ((b0.toNat + 256 * b1.toNat) / 256) = b1 := by
  constructor <;> bv_omega

/-! ### The value's bytes -/

theorem bitVec_append_inj {m n : Nat} {x x' : BitVec m} {y y' : BitVec n} (h : x ++ y = x' ++ y') :
    x = x' ∧ y = y' := by
  constructor
  · rw [← BitVec.extractLsb'_append_eq_left (a := x) (b := y), h, BitVec.extractLsb'_append_eq_left]
  · rw [← BitVec.extractLsb'_append_eq_right (a := x) (b := y), h, BitVec.extractLsb'_append_eq_right]

theorem append_byteOf (v : DWord) : byteOf v 7 ++ byteOf v 6 ++ byteOf v 5 ++ byteOf v 4 ++ byteOf v 3 ++ byteOf v 2
    ++ byteOf v 1 ++ byteOf v 0 = v := by
  unfold byteOf
  iterate 7 rw [BitVec.extractLsb'_append_extractLsb'_eq_extractLsb' (by rfl)]
  exact BitVec.extractLsb'_eq_self

/-- The bytes of a value are determined by it: `append_byteOf` gives it as the same concatenation. -/
theorem byteOf_of_append {v0 v1 v2 v3 v4 v5 v6 v7 : Byte} {v : DWord}
    (h : v7 ++ v6 ++ v5 ++ v4 ++ v3 ++ v2 ++ v1 ++ v0 = v) :
    byteOf v 0 = v0 ∧ byteOf v 1 = v1 ∧ byteOf v 2 = v2 ∧ byteOf v 3 = v3 ∧ byteOf v 4 = v4 ∧ byteOf v 5 = v5
      ∧ byteOf v 6 = v6 ∧ byteOf v 7 = v7 := by
  obtain ⟨h, e0⟩ := bitVec_append_inj ((append_byteOf v).trans h.symm)
  obtain ⟨h, e1⟩ := bitVec_append_inj h
  obtain ⟨h, e2⟩ := bitVec_append_inj h
  obtain ⟨h, e3⟩ := bitVec_append_inj h
  obtain ⟨h, e4⟩ := bitVec_append_inj h
  obtain ⟨h, e5⟩ := bitVec_append_inj h
  obtain ⟨e7, e6⟩ := bitVec_append_inj h
  exact ⟨e0, e1, e2, e3, e4, e5, e6, e7⟩

/-! ### The form of an access -/

theorem setWidth_word (w : Word) : w.setWidth 64 = (0#32) ++ w := by
  apply BitVec.eq_of_toNat_eq
  rw [BitVec.toNat_setWidth_of_le (by decide), BitVec.toNat_append]
  simp

/-- The form of an access is read back from its direction, its size and its value. -/
theorem formOf_valueField (op : AccOp) : formOf op.isWrite op.is64 (valueField op) = some op := by
  cases op with
  | rd32 => rfl
  | rd64 => rfl
  | wr64 v => rfl
  | wr32 v =>
    have high : (v.setWidth 64).extractLsb' 32 32 = 0 := by
      rw [setWidth_word, BitVec.extractLsb'_append_eq_left]; rfl
    have low : (v.setWidth 64).extractLsb' 0 32 = v := by
      rw [setWidth_word, BitVec.extractLsb'_append_eq_right]
    simp only [formOf, AccOp.isWrite, AccOp.is64, valueField, high, low, if_true]

theorem fields_of_formOf {write wide : Bool} {v : DWord} {op : AccOp} (h : formOf write wide v = some op) :
    op.isWrite = write ∧ op.is64 = wide ∧ valueField op = v := by
  match write, wide with
  | false, false | false, true =>
    obtain ⟨rfl, hop⟩ := Option.ite_none_right_eq_some.1 h
    cases hop
    exact ⟨rfl, rfl, rfl⟩
  | true, true => cases h; exact ⟨rfl, rfl, rfl⟩
  | true, false =>
    obtain ⟨high, hop⟩ := Option.ite_none_right_eq_some.1 h
    cases hop
    refine ⟨rfl, rfl, ?_⟩
    rw [valueField, setWidth_word, show 0#32 = _ from high.symm,
      BitVec.extractLsb'_append_extractLsb'_eq_extractLsb' (by rfl)]
    exact BitVec.extractLsb'_eq_self

/-! ### The flags byte -/

theorem flagsByte_bits (a : Access) :
    (flagsByte a).getLsbD 0 = (a.page == .p1) ∧ (flagsByte a).getLsbD 1 = a.op.isWrite
      ∧ (flagsByte a).getLsbD 2 = a.op.is64 ∧ (flagsByte a).getLsbD 3 = false
      ∧ (flagsByte a).getLsbD 4 = a.ns ∧ (flagsByte a).extractLsb' 5 3 = 0 := by
  unfold flagsByte
  generalize a.ns = ns, a.op.is64 = wide, a.op.isWrite = write, (a.page == .p1) = second
  revert ns wide write second
  decide

theorem ofBool_getLsbD {w : Nat} (b : BitVec w) (i : Nat) : BitVec.ofBool (b.getLsbD i) = b.extractLsb' i 1 := by
  rw [BitVec.getLsbD_eq_extractLsb']
  generalize b.extractLsb' i 1 = bit
  revert bit
  decide

/-- A byte whose reserved bits are 0 is the flags byte of the access with its page, direction, size and `ns`. -/
theorem flagsByte_of_bits {b : Byte} {a : Access} (size : b.getLsbD 3 = false) (reserved : b.extractLsb' 5 3 = 0)
    (page : (a.page == .p1) = b.getLsbD 0) (write : a.op.isWrite = b.getLsbD 1) (wide : a.op.is64 = b.getLsbD 2)
    (ns : a.ns = b.getLsbD 4) : flagsByte a = b := by
  rw [flagsByte, page, write, wide, ns, show 0#3 = _ from reserved.symm,
    show 0#1 = BitVec.ofBool (b.getLsbD 3) by rw [size]; rfl]
  simp only [ofBool_getLsbD]
  iterate 5 rw [BitVec.extractLsb'_append_extractLsb'_eq_extractLsb' (by rfl)]
  exact BitVec.extractLsb'_eq_self

/-! ### The frame -/

theorem parseFrame_frameOf {r : RawAccess} (h : OffsetFits r) : parseFrame (frameOf r) = .ok r := by
  obtain ⟨off, page, ns, op⟩ := r
  obtain ⟨inPage, aligned, aligned64⟩ := h
  obtain ⟨b0, b1, b2, b3, b4, reserved⟩ := flagsByte_bits ⟨page, ns, op⟩
  have hpage : (if (page == .p1) = true then Page.p1 else .p0) = page := by cases page <;> rfl
  simp only [parseFrame, frameOf, append_byteOf, offset_of_bytes inPage, b0, b1, b2, b3, b4, reserved,
    formOf_valueField, hpage]
  rw [if_neg (by simpa using inPage), if_neg (by simp), if_neg (by simpa using aligned),
    if_neg (by simpa using aligned64)]

theorem frameOf_of_parseFrame {frame : List Byte} {r : RawAccess} (h : parseFrame frame = .ok r) :
    OffsetFits r ∧ frameOf r = frame := by
  unfold parseFrame at h
  split at h
  · next b0 b1 b2 b3 v0 v1 v2 v3 v4 v5 v6 v7 =>
    dsimp only at h
    iterate 4
      split at h
      · cases h
    rename_i fields size aligned aligned64
    split at h
    · next op form =>
      cases h
      obtain ⟨write, wide, value⟩ := fields_of_formOf form
      obtain ⟨inPage, rfl, reserved⟩ : b0.toNat + 256 * b1.toNat < 4096 ∧ b3 = 0 ∧ b2.extractLsb' 5 3 = 0 := by
        simpa only [not_or, not_le, not_not] using fields
      have flags : flagsByte ⟨if b2.getLsbD 0 = true then .p1 else .p0, b2.getLsbD 4, op⟩ = b2 :=
        flagsByte_of_bits (by simpa using size) reserved (by cases b2.getLsbD 0 <;> rfl) write wide rfl
      obtain ⟨lo, hi⟩ := bytes_of_offset b0 b1
      obtain ⟨e0, e1, e2, e3, e4, e5, e6, e7⟩ := byteOf_of_append value.symm
      refine ⟨⟨inPage, by simpa using aligned, fun h64 => ?_⟩, ?_⟩
      · simpa [← wide, show op.is64 = true from h64] using aligned64
      · simp only [frameOf, flags, lo, hi, e0, e1, e2, e3, e4, e5, e6, e7]
    · cases h
  · cases h

end Sys2Proof.Laws
end

section
/-! The register map (R112 to R114, R119): which register an offset selects, and at which offset a register is. -/

set_option Elab.async false

namespace Sys2Proof.Laws

variable {c : Cfg} {off n k : Nat} {a : Access}

/-- `i` is the access `a` to the register that the map has at `off` (R112, R113). -/
structure RegisterAt (c : Cfg) (off : Nat) (a : Access) (i : Instr) : Prop where
  inMap : i.inMap c = true
  offset : i.offset c = off
  access : i.access = a

theorem isCycle_eq_true : c.isCycle n = true ↔ c.cc = true ∧ n = 31 := by
  simp [Cfg.isCycle]

theorem isCycle_31 (cc : c.cc = true) : c.isCycle 31 = true := isCycle_eq_true.2 ⟨cc, rfl⟩

/-! ### Monitor values (R112, R113, R114 (a)) -/

theorem rowOf_counter (hw : c.wide = false) (hn : n < 256) :
    rowOf c (4 * n) = some (if c.isCycle n then .pmccntr else .pmevcntr n) := by
  simp (disch := omega) only [rowOf, if_pos, counterRow, hw, Bool.false_eq_true, if_false, Nat.mul_div_cancel_left]

theorem rowOf_counterLo (hw : c.wide = true) (hn : n < 128) :
    rowOf c (8 * n) = some (if c.isCycle n then .pmccntrLo else .pmevcntrLo n) := by
  simp (disch := omega) only [rowOf, if_pos, counterRow, hw, if_true, Nat.mul_div_cancel_left, Nat.mul_mod_right]

theorem rowOf_counterHi (hw : c.wide = true) (hn : n < 128) :
    rowOf c (8 * n + 4) = some (if c.isCycle n then .pmccntrHi else .pmevcntrHi n) := by
  have index : (8 * n + 4) / 8 = n := by omega
  simp (disch := omega) only [rowOf, if_pos, if_neg, counterRow, hw, if_true, index]

theorem counter_registerAt (hw : c.wide = false) (hn : n < 256) :
    RegisterAt c (4 * n) a ((if c.isCycle n then Instr.pmccntr else .pmevcntr n) a) := by
  split
  next cycle =>
    obtain ⟨cc, rfl⟩ := isCycle_eq_true.1 cycle
    exact ⟨by simp [Instr.inMap, hw, cc], rfl, rfl⟩
  next cycle => exact ⟨by simp [Instr.inMap, hw, hn, cycle], rfl, rfl⟩

theorem counterLo_registerAt (hw : c.wide = true) (hn : n < 128) :
    RegisterAt c (8 * n) a ((if c.isCycle n then Instr.pmccntrLo else .pmevcntrLo n) a) := by
  split
  next cycle =>
    obtain ⟨cc, rfl⟩ := isCycle_eq_true.1 cycle
    exact ⟨by simp [Instr.inMap, hw, cc], rfl, rfl⟩
  next cycle => exact ⟨by simp [Instr.inMap, hw, hn, cycle], rfl, rfl⟩

theorem counterHi_registerAt (hw : c.wide = true) (hn : n < 128) :
    RegisterAt c (8 * n + 4) a ((if c.isCycle n then Instr.pmccntrHi else .pmevcntrHi n) a) := by
  split
  next cycle =>
    obtain ⟨cc, rfl⟩ := isCycle_eq_true.1 cycle
    exact ⟨by simp [Instr.inMap, hw, cc], rfl, rfl⟩
  next cycle => exact ⟨by simp [Instr.inMap, hw, hn, cycle], rfl, rfl⟩

/-! ### Event selects (R112, R119) -/

theorem rowOf_select (hn : n < 128) :
    rowOf c (0x400 + 4 * n) = some (if c.isCycle n then .pmccfiltr else .pmevtyper n) := by
  have index : (0x400 + 4 * n - 0x400) / 4 = n := by omega
  rw [rowOf, if_neg (by omega), if_pos (by omega), index]

theorem rowOf_highTyper (ss : c.ss = false) (low : 128 ≤ n) (hn : n < 256) :
    rowOf c (0x400 + 4 * n) = some (.pmevtyper n) := by
  have index : (0x400 + 4 * n - 0x400) / 4 = n := by omega
  rw [rowOf, if_neg (by omega), if_neg (by omega), index, ss]
  simp (disch := omega) only [Bool.false_eq_true, if_false, ite_self, if_pos]

theorem select_registerAt (hn : n < 128) :
    RegisterAt c (0x400 + 4 * n) a ((if c.isCycle n then Instr.pmccfiltr else .pmevtyper n) a) := by
  split
  next cycle =>
    obtain ⟨cc, rfl⟩ := isCycle_eq_true.1 cycle
    exact ⟨cc, rfl, rfl⟩
  next cycle =>
    have bound : n < if c.ss then 128 else 256 := by split <;> omega
    exact ⟨by simp [Instr.inMap, cycle, bound], rfl, rfl⟩

/-- The cycle counter is monitor 31, so it is not among these. -/
theorem highTyper_registerAt (ss : c.ss = false) (low : 128 ≤ n) (hn : n < 256) :
    RegisterAt c (0x400 + 4 * n) a (.pmevtyper n a) := by
  have cycle : c.isCycle n = false := by
    rw [Bool.eq_false_iff, Ne, isCycle_eq_true]
    omega
  exact ⟨by simp [Instr.inMap, cycle, ss, hn], rfl, rfl⟩

/-! ### Saved value registers (R114 (c), R213) -/

theorem rowOf_svr (ss : c.ss = true) (hk : k < 64) : rowOf c (0x600 + 4 * k) = some (svrRow c k) := by
  have index : (0x600 + 4 * k - 0x600) / 4 = k := by omega
  rw [rowOf, if_neg (by omega), if_neg (by omega), if_pos (by omega), if_pos ss, index]

/-- Each name of a saved value register is the one its slot of the map has. -/
theorem svr_registerAt (hwf : c.wf = true) (ss : c.ss = true) (hk : k < 64) :
    RegisterAt c (0x600 + 4 * k) a (svrRow c k a) := by
  obtain ⟨-, ssrLt, ssrSlot, slots⟩ := Cfg.ss_parts hwf ss
  have slot := slots k hk
  unfold svrRow
  cases hs : c.svrSlot k with
  | ssr => exact ⟨by simp [Instr.inMap, ss, ssrLt, ssrSlot], by rw [Instr.offset, Cfg.ssr_unique hwf ss hk hs], rfl⟩
  | ovs m =>
    simp only [Cfg.wfSlot, hs, Bool.and_eq_true, decide_eq_true_eq] at slot
    obtain ⟨⟨-, here⟩, -⟩ := slot
    exact ⟨by simp [Instr.inMap, ss, here, hk, hs], by rw [Instr.offset, here], rfl⟩
  | counterLo n | counterHi n | syndrome j | unused => exact ⟨by simp [Instr.inMap, ss, hk, hs], rfl, rfl⟩

/-! ### Arrays of one register to a word, and the registers at fixed offsets (R112) -/

/-- An array of `count` registers from the offset `base` on. -/
theorem array_registerAt {base count : Nat} {row : Nat → Access → Instr}
    (inMap : ∀ k a, (row k a).inMap c = decide (k < count)) (offset : ∀ k a, (row k a).offset c = base + 4 * k)
    (access : ∀ k a, (row k a).access = a) (aligned : off % 4 = base % 4) (low : base ≤ off)
    (high : off < base + 4 * count) : RegisterAt c off a (row ((off - base) / 4) a) :=
  ⟨by rw [inMap, decide_eq_true_eq]; omega, by rw [offset]; omega, access _ a⟩

theorem fixedRows_registerAt (c : Cfg) (a : Access) : ∀ p ∈ fixedRows, RegisterAt c p.1 a (p.2 a) := by
  unfold fixedRows
  iterate 30 refine List.forall_mem_cons.2 ⟨⟨rfl, rfl, rfl⟩, ?_⟩
  exact List.forall_mem_nil _

/-! ### The register at an offset -/

theorem counterRow_registerAt (aligned : off % 4 = 0) (high : off < 0x400) {row : Access → Instr}
    (h : rowOf c off = some row) (a : Access) : RegisterAt c off a (row a) := by
  cases hw : c.wide with
  | false =>
    obtain ⟨n, rfl⟩ : ∃ n, off = 4 * n := ⟨off / 4, by omega⟩
    cases (rowOf_counter hw (by omega)).symm.trans h
    exact counter_registerAt hw (by omega)
  | true =>
    obtain ⟨n, rfl | rfl⟩ : ∃ n, off = 8 * n ∨ off = 8 * n + 4 := ⟨off / 8, by omega⟩
    · cases (rowOf_counterLo hw (by omega)).symm.trans h
      exact counterLo_registerAt hw (by omega)
    · cases (rowOf_counterHi hw (by omega)).symm.trans h
      exact counterHi_registerAt hw (by omega)

theorem selectRow_registerAt (aligned : off % 4 = 0) (low : 0x400 ≤ off) (high : off < 0x600)
    {row : Access → Instr} (h : rowOf c off = some row) (a : Access) : RegisterAt c off a (row a) := by
  obtain ⟨n, rfl⟩ : ∃ n, off = 0x400 + 4 * n := ⟨(off - 0x400) / 4, by omega⟩
  cases (rowOf_select (by omega)).symm.trans h
  exact select_registerAt (by omega)

/-- The locations that the saved value registers and the last event selects share (R114, R119). -/
theorem sharedRow_registerAt (hwf : c.wf = true) (aligned : off % 4 = 0) (low : 0x600 ≤ off) (high : off < 0x800)
    {row : Access → Instr} (h : rowOf c off = some row) (a : Access) : RegisterAt c off a (row a) := by
  cases ss : c.ss with
  | false =>
    obtain ⟨n, rfl⟩ : ∃ n, off = 0x400 + 4 * n := ⟨(off - 0x400) / 4, by omega⟩
    cases (rowOf_highTyper ss (by omega) (by omega)).symm.trans h
    exact highTyper_registerAt ss (by omega) (by omega)
  | true =>
    by_cases svr : off < 0x700
    · obtain ⟨k, rfl⟩ : ∃ k, off = 0x600 + 4 * k := ⟨(off - 0x600) / 4, by omega⟩
      cases (rowOf_svr ss (by omega)).symm.trans h
      exact svr_registerAt hwf ss (by omega)
    · have hole : rowOf c off = none := Machine.rowOf_hole (by simp only [ss, true_and]; omega)
      cases hole.symm.trans h

/-- The ten arrays, by what they have in common. -/
theorem arrayRow_registerAt (aligned : off % 4 = 0)
    (region : (0xA00 ≤ off ∧ off < 0xCA0) ∨ (0xCC0 ≤ off ∧ off < 0xCF0) ∨ (0xD80 ≤ off ∧ off < 0xE00)
      ∨ (0xE20 ≤ off ∧ off < 0xE30))
    {row : Access → Instr} (h : rowOf c off = some row) (a : Access) : RegisterAt c off a (row a) := by
  obtain r | r | r | r | r | r | r | r | r | r : (0xA00 ≤ off ∧ off < 0xC00) ∨ (0xC00 ≤ off ∧ off < 0xC20)
      ∨ (0xC20 ≤ off ∧ off < 0xC40) ∨ (0xC40 ≤ off ∧ off < 0xC60) ∨ (0xC60 ≤ off ∧ off < 0xC80)
      ∨ (0xC80 ≤ off ∧ off < 0xCA0) ∨ (0xCC0 ≤ off ∧ off < 0xCE0) ∨ (0xCE0 ≤ off ∧ off < 0xCF0)
      ∨ (0xD80 ≤ off ∧ off < 0xE00) ∨ (0xE20 ≤ off ∧ off < 0xE30) := by omega
  all_goals
    simp (disch := omega) only [rowOf, if_neg, if_pos, Option.some.injEq] at h
    subst h
    exact array_registerAt (fun _ _ => rfl) (fun _ _ => rfl) (fun _ _ => rfl) (by omega) (by omega) (by omega)

/-- The register that a word-aligned offset selects is in the map at that offset: region by region (R112). -/
theorem rowOf_registerAt (hwf : c.wf = true) (aligned : off % 4 = 0) {row : Access → Instr}
    (h : rowOf c off = some row) (a : Access) : RegisterAt c off a (row a) := by
  obtain counter | select | shared | hole | fixed | array : off < 0x400 ∨ (0x400 ≤ off ∧ off < 0x600)
      ∨ (0x600 ≤ off ∧ off < 0x800)
      ∨ ((0x800 ≤ off ∧ off < 0xA00) ∨ (0xCA0 ≤ off ∧ off < 0xCC0) ∨ (0xCF0 ≤ off ∧ off < 0xD80))
      ∨ (0xE00 ≤ off ∧ ¬ (0xE20 ≤ off ∧ off < 0xE30))
      ∨ ((0xA00 ≤ off ∧ off < 0xCA0) ∨ (0xCC0 ≤ off ∧ off < 0xCF0) ∨ (0xD80 ≤ off ∧ off < 0xE00)
        ∨ (0xE20 ≤ off ∧ off < 0xE30)) := by omega
  · exact counterRow_registerAt aligned counter h a
  · exact selectRow_registerAt aligned select.1 select.2 h a
  · exact sharedRow_registerAt hwf aligned shared.1 shared.2 h a
  · cases (Machine.rowOf_hole (by omega)).symm.trans h
  · rw [Machine.rowOf_of_fixed fixed.1 fixed.2] at h
    exact fixedRows_registerAt c a _ (Machine.fixedRow_mem h)
  · exact arrayRow_registerAt aligned array h a

/-! ### The offset of a register in the map -/

theorem rowOf_offset {i : Instr} (h : i.inMap c = true) :
    ∃ row, rowOf c (i.offset c) = some row ∧ row i.access = i := by
  cases i
  case pmevcntr n a =>
    obtain ⟨⟨hw, hn⟩, cycle⟩ : (c.wide = false ∧ n < 256) ∧ c.isCycle n = false := by simpa [Instr.inMap] using h
    exact ⟨_, rowOf_counter hw hn, by rw [cycle]; rfl⟩
  case pmevcntrLo n a =>
    obtain ⟨⟨hw, hn⟩, cycle⟩ : (c.wide = true ∧ n < 128) ∧ c.isCycle n = false := by simpa [Instr.inMap] using h
    exact ⟨_, rowOf_counterLo hw hn, by rw [cycle]; rfl⟩
  case pmevcntrHi n a =>
    obtain ⟨⟨hw, hn⟩, cycle⟩ : (c.wide = true ∧ n < 128) ∧ c.isCycle n = false := by simpa [Instr.inMap] using h
    exact ⟨_, rowOf_counterHi hw hn, by rw [cycle]; rfl⟩
  case pmccntr a =>
    obtain ⟨hw, cc⟩ : c.wide = false ∧ c.cc = true := by simpa [Instr.inMap] using h
    exact ⟨_, rowOf_counter (n := 31) hw (by decide), by rw [isCycle_31 cc]; rfl⟩
  case pmccntrLo a =>
    obtain ⟨hw, cc⟩ : c.wide = true ∧ c.cc = true := by simpa [Instr.inMap] using h
    exact ⟨_, rowOf_counterLo (n := 31) hw (by decide), by rw [isCycle_31 cc]; rfl⟩
  case pmccntrHi a =>
    obtain ⟨hw, cc⟩ : c.wide = true ∧ c.cc = true := by simpa [Instr.inMap] using h
    exact ⟨_, rowOf_counterHi (n := 31) hw (by decide), by rw [isCycle_31 cc]; rfl⟩
  case pmccfiltr a => exact ⟨_, rowOf_select (n := 31) (by decide), by rw [isCycle_31 h]; rfl⟩
  case pmevtyper n a =>
    obtain ⟨hn, cycle⟩ : (n < if c.ss = true then 128 else 256) ∧ c.isCycle n = false := by
      simpa [Instr.inMap] using h
    by_cases low : n < 128
    · exact ⟨_, rowOf_select low, by rw [cycle]; rfl⟩
    · have ss : c.ss = false := Bool.eq_false_iff.2 fun ss => low (by simpa [ss] using hn)
      exact ⟨_, rowOf_highTyper ss (by omega) (by simpa [ss] using hn), rfl⟩
  case pmsvr k a =>
    cases slot : c.svrSlot k with
    | ssr | ovs m => simp [Instr.inMap, slot] at h
    | counterLo n | counterHi n | syndrome j | unused =>
      obtain ⟨ss, hk⟩ : c.ss = true ∧ k < 64 := by simpa [Instr.inMap, slot] using h
      exact ⟨_, rowOf_svr ss hk, by rw [svrRow, slot]; rfl⟩
  case pmsssr a =>
    obtain ⟨⟨ss, hk⟩, slot⟩ : (c.ss = true ∧ c.ssrIdx < 64) ∧ c.svrSlot c.ssrIdx = .ssr := by
      simpa [Instr.inMap] using h
    exact ⟨_, rowOf_svr ss hk, by rw [svrRow, slot]; rfl⟩
  case pmovssr m a =>
    obtain ⟨⟨ss, hk⟩, slot⟩ : (c.ss = true ∧ c.slotIdx (.ovs m) < 64) ∧ c.svrSlot (c.slotIdx (.ovs m)) = .ovs m := by
      simpa [Instr.inMap] using h
    exact ⟨_, rowOf_svr ss hk, by rw [svrRow, slot]; rfl⟩
  case pmcntenset m a | pmcntenclr m a | pmintenset m a | pmintenclr m a | pmovsclr m a | pmovsset m a
      | pmevfiltr m a | pmcgcr m a | pmceid m a | impdef m a =>
    have bound := of_decide_eq_true h
    generalize hoff : Instr.offset c _ = off
    simp only [Instr.offset] at hoff
    refine ⟨_, by simp (disch := omega) only [rowOf, if_neg, if_pos]; rfl, ?_⟩
    simp only [Instr.access]
    congr
    omega
  all_goals exact ⟨_, rfl, rfl⟩

end Sys2Proof.Laws
end

section
/-! Decoding and encoding are inverse (spec 30 sections 1 to 6). -/

set_option Elab.async false

namespace Sys2Proof.Laws

variable {c : Cfg} {i : Instr} {r : RawAccess}

theorem offsetAligned (i : Instr) : OffsetAligned.Statement i := by
  cases i
  exacts [OffsetAligned.pmevcntr _ _, OffsetAligned.pmevcntrLo _ _, OffsetAligned.pmevcntrHi _ _,
    OffsetAligned.pmccntr _, OffsetAligned.pmccntrLo _, OffsetAligned.pmccntrHi _, OffsetAligned.pmevtyper _ _,
    OffsetAligned.pmccfiltr _, OffsetAligned.pmsvr _ _, OffsetAligned.pmsssr _, OffsetAligned.pmovssr _ _,
    OffsetAligned.pmevfiltr _ _, OffsetAligned.pmcntenset _ _, OffsetAligned.pmcntenclr _ _,
    OffsetAligned.pmintenset _ _, OffsetAligned.pmintenclr _ _, OffsetAligned.pmovsclr _ _,
    OffsetAligned.pmovsset _ _, OffsetAligned.pmcgcr _ _, OffsetAligned.impdef _ _, OffsetAligned.pmcfgr _,
    OffsetAligned.pmcr _, OffsetAligned.pmiidr _, OffsetAligned.pmceid _ _, OffsetAligned.pmsscr _,
    OffsetAligned.pmssrrLo _, OffsetAligned.pmssrrHi _, OffsetAligned.pmirqcr0Lo _, OffsetAligned.pmirqcr0Hi _,
    OffsetAligned.pmirqcr1 _, OffsetAligned.pmirqcr2 _, OffsetAligned.pmirqsrLo _, OffsetAligned.pmirqsrHi _,
    OffsetAligned.pmdevaffLo _, OffsetAligned.pmdevaffHi _, OffsetAligned.pmauthstatus _, OffsetAligned.pmdevarch _,
    OffsetAligned.pmdevid _, OffsetAligned.pmdevtype _, OffsetAligned.pmpidr4 _, OffsetAligned.pmpidr5 _,
    OffsetAligned.pmpidr6 _, OffsetAligned.pmpidr7 _, OffsetAligned.pmpidr0 _, OffsetAligned.pmpidr1 _,
    OffsetAligned.pmpidr2 _, OffsetAligned.pmpidr3 _, OffsetAligned.pmcidr0 _, OffsetAligned.pmcidr1 _,
    OffsetAligned.pmcidr2 _, OffsetAligned.pmcidr3 _]

theorem wf_iff : i.wf c = true ↔ i.inMap c = true ∧ (i.pages c).admits c.dual i.access.page = true
    ∧ (i.access.op.is64 = true → i.supports64 c = true) := by
  simp only [Instr.wf, Bool.and_eq_true, Bool.or_eq_true, Bool.not_eq_true', and_assoc, ← Bool.not_eq_true,
    imp_iff_not_or]

theorem offsetFits_of_wf (h : i.wf c = true) : OffsetFits ⟨i.offset c, i.access⟩ := by
  obtain ⟨inMap, -, size⟩ := wf_iff.1 h
  obtain ⟨inPage, aligned, aligned64⟩ := offsetAligned i c inMap
  exact ⟨inPage, aligned, fun h64 => aligned64 (size h64)⟩

/-- A page that a PMU does not have admits no register (R70). -/
theorem page_exists {set : PageSet} {p : Page} (h : set.admits c.dual p = true) : ¬ (p = .p1 ∧ c.dual = false) := by
  rintro ⟨rfl, single⟩
  rw [single] at h
  exact absurd (show (Page.p1 == .p0) = true from h) (by decide)

/-- An access is one to a register exactly if its offset selects the register, the page holds it and it supports
the size. -/
theorem decodeRaw_eq_instr : decodeRaw c r = .ok (.instr i) ↔ ∃ row, rowOf c r.off = some row ∧ row r.access = i
    ∧ (i.pages c).admits c.dual r.access.page = true ∧ (r.access.op.is64 = true → i.supports64 c = true) := by
  constructor
  · intro h
    unfold decodeRaw at h
    split at h
    · cases h
    split at h
    · next row hrow =>
      dsimp only at h
      split at h
      · next page =>
        split at h
        · cases h
        · next size =>
          cases h
          exact ⟨row, hrow, rfl, page, by simpa using size⟩
      · split at h <;> cases h
    · split at h <;> cases h
  · rintro ⟨row, hrow, rfl, page, size⟩
    have supported : ¬ (r.access.op.is64 && !(row r.access).supports64 c) = true := by simpa using size
    simp only [decodeRaw, if_neg (page_exists page), hrow, if_pos page, if_neg supported]

/-- Settles O1: the parser reads back the access of the frame, and the instruction's offset selects its register. -/
theorem decodeReturnsEncodedInstruction : Obligations.DecodeReturnsEncodedInstruction := by
  unfold Obligations.DecodeReturnsEncodedInstruction
  intro c i h
  obtain ⟨inMap, page, size⟩ := wf_iff.1 h
  obtain ⟨row, hrow, hi⟩ := rowOf_offset inMap
  exact Machine.decode_eq_ok.2
    ⟨_, parseFrame_frameOf (offsetFits_of_wf h), decodeRaw_eq_instr.2 ⟨row, hrow, hi, page, size⟩⟩

/-- Settles O2: the parsed access is that of the frame, and the register its offset selects is in the map there. -/
theorem encodeReturnsDecodedFrame : Obligations.EncodeReturnsDecodedFrame := by
  unfold Obligations.EncodeReturnsDecodedFrame
  intro c frame i hwf h
  obtain ⟨r, parsed, decoded⟩ := Machine.decode_eq_ok.1 h
  obtain ⟨fits, hframe⟩ := frameOf_of_parseFrame parsed
  obtain ⟨row, hrow, rfl, page, size⟩ := decodeRaw_eq_instr.1 decoded
  obtain ⟨inMap, offset, access⟩ := rowOf_registerAt hwf fits.aligned hrow r.access
  refine ⟨wf_iff.2 ⟨inMap, by rwa [access], by rwa [access]⟩, ?_⟩
  rw [encode, offset, access, hframe]

/-- A table word whose frame is the one of a register of the reset configuration decodes to that register. -/
theorem decodeTableWord_of_encode {nbits w : Nat} (h : i.wf Config.reference = true)
    (frame : encode Config.reference i = tableFrame nbits w) : decodeTableWord nbits w = some i := by
  rw [decodeTableWord, ← frame, decodeReturnsEncodedInstruction _ _ h]

/-- Settles O3: each word is the offset of its register, hence the frame of a 32-bit read of it. -/
theorem tableWordsDecode : Obligations.TableWordsDecode := by
  unfold Obligations.TableWordsDecode
  refine ⟨?_, ?_, ?_, ?_, ?_, ?_⟩
  all_goals exact decodeTableWord_of_encode (by decide) (by decide)

end Sys2Proof.Laws
end

section
/-! When an occurrence counts, leaves or is traced, and what the steps that count do to a monitor and its flag (R144 to
R146, R152 to R154, R160, R186, R216, R219). -/

set_option Elab.async false

namespace Sys2Proof.Machine

variable {s : State} {n : Nat} {e : Occ}

/-! ### The conditions for counting -/

theorem prohibited_eq_true {a : Option AgentState} :
    s.prohibited a = true ↔ ∃ b, a = some b ∧ s.env.allowed b = false := by
  cases a <;> simp [State.prohibited]

theorem prohibited_eq_false {a : Option AgentState} :
    s.prohibited a = false ↔ ∀ b, a = some b → s.env.allowed b = true := by
  cases a <;> simp [State.prohibited]

/-- Debug state blocks an event by the event's own rule, and where it has none by PMCR.HDBG or, without that bit, by
the implementation's default (R186). -/
theorem haltBlocked_eq_true : s.haltBlocked e = true ↔ e.debug = true
    ∧ (s.cfg.dbgRule e.id = some .never
      ∨ s.cfg.dbgRule e.id = none ∧ (s.cfg.hdbg = true ∧ s.pmcr.hdbg = true
        ∨ s.cfg.hdbg = false ∧ s.cfg.dbgDefault = .never)) := by
  unfold State.haltBlocked
  cases s.cfg.dbgRule e.id with
  | none => cases s.cfg.hdbg <;> simp
  | some rule => cases rule <;> simp

/-- The conditions of R144, all of them. -/
theorem counts_eq_true : s.counts n e = true ↔ s.st = .run ∧ s.enabled n = true
    ∧ (∀ a, e.opst = some a → s.env.allowed a = true) ∧ s.haltBlocked e = false
    ∧ s.cfg.eventSel n (s.typerAt n) (s.filtrAt n) e = true := by
  simp [State.counts, ← prohibited_eq_false, and_assoc]

theorem exported_eq_true : s.exported e = true ↔
    s.pmcr.x = true ∧ ∀ a, e.opst = some a → s.env.allowed a = true := by
  simp [State.exported, ← prohibited_eq_false]

theorem mayTrace_eq_true : s.mayTrace e = true ↔
    (s.cfg.tro = true → s.pmcr.tro = true) ∧ ∀ a, e.opst = some a → s.env.allowed a = true := by
  rw [← prohibited_eq_false]
  cases h : s.cfg.tro <;> simp [State.mayTrace, h]

theorem count_of_counts (counter : s.cfg.isCounter n = true) (cycle : s.cfg.isCycle n = false)
    (h : s.counts n e = true) : s.count n e = (s.chainLo n).countBy n (s.cfg.incr n e) e := by
  simp [State.count, counter, cycle, h]

theorem count_of_not_counts (h : s.counts n e ≠ true) : s.count n e = s := by
  simp [State.count, h]

/-- Settles O44: each reason contradicts one of the conditions of R144, so the occurrence does not count. -/
theorem occurrencesCountLeaveAndTraceOnlyWhereAllowed :
    Obligations.OccurrencesCountLeaveAndTraceOnlyWhereAllowed := by
  unfold Obligations.OccurrencesCountLeaveAndTraceOnlyWhereAllowed
  refine ⟨fun s n e reason => congrArg Host.Outcome.next (count_of_not_counts fun counted => ?_),
    fun s e => ⟨exported_eq_true, mayTrace_eq_true⟩⟩
  obtain ⟨run, enabled, allowed, unblocked, selected⟩ := counts_eq_true.1 counted
  have notBlocked := mt haltBlocked_eq_true.2 (Bool.eq_false_iff.1 unblocked)
  obtain stopped | disabled | ⟨a, opst, denied⟩ | ⟨debug, noRule, has, hdbg⟩ | ⟨debug, noRule, hasNot, never⟩
    | ⟨debug, never⟩ | other := reason
  · exact stopped run
  · simp [enabled] at disabled
  · simp [allowed a opst] at denied
  · exact notBlocked ⟨debug, .inr ⟨noRule, .inl ⟨has, hdbg⟩⟩⟩
  · exact notBlocked ⟨debug, .inr ⟨noRule, .inr ⟨hasNot, never⟩⟩⟩
  · exact notBlocked ⟨debug, .inl never⟩
  · simp [selected] at other

/-! ### Adding to a monitor -/

theorem raiseOvs_ovsBit (k : Nat) : (s.raiseOvs n).ovsBit k = (s.ovsBit k || decide (k = n ∧ k < 256)) := by
  simp [State.ovsBit, eq_comm, Bool.and_comm]

theorem addTo_xAt (a k : Nat) :
    (s.addTo n a).xAt k = if n = k then s.cfg.wrap n ((s.xAt n).toNat + a) else s.xAt k := by
  rw [State.addTo_eq]
  exact s.putX_xAt n _ k

theorem addTo_ovsBit (a k : Nat) : (s.addTo n a).ovsBit k
    = (s.ovsBit k || decide (k = n ∧ k < 256) && decide (2 ^ s.cfg.width n ≤ (s.xAt n).toNat + a)) := by
  unfold State.addTo
  dsimp only
  split
  · rename_i overflow
    rw [raiseOvs_ovsBit, decide_eq_true overflow, Bool.and_true]
    rfl
  · rename_i fits
    rw [decide_eq_false fits, Bool.and_false, Bool.or_false]
    rfl

theorem addTo_chained (a : Nat) : (s.addTo n a).chained n = s.chained n := by
  rw [State.addTo_eq]; rfl

theorem chainFrom_of_unchained (h : s.chained n = false) : s.chainFrom n e = s := by
  simp [State.chainFrom, h]

theorem chainFromFrozen_of_unchained {before : OpSt} (h : s.chained n = false) :
    s.chainFromFrozen before n e = s := by
  simp [State.chainFromFrozen, h, chainFrom_of_unchained h]

/-- Counting only adds where there is no overflow to chain (R145, R202). -/
theorem countBy_eq_addTo {a : Nat} (h : s.chained n = false ∨ (s.xAt n).toNat + a < 2 ^ s.cfg.width n) :
    s.countBy n a e = s.addTo n a := by
  unfold State.countBy
  split
  · rename_i overflow
    have unchained : s.chained n = false := h.resolve_right (Nat.not_lt.2 overflow)
    have after : (s.addTo n a).chained n = false := (addTo_chained a).trans unchained
    simp [unchained, chainFromFrozen_of_unchained after]
  · rfl

/-! ### The held-back update -/

theorem chainLo_of_lowAt_eq_zero (h : s.lowAt n = 0) : s.chainLo n = s := by
  rw [State.chainLo, if_pos h]

theorem chainLo_xAt_self (h : s.lowAt n ≠ 0) :
    (s.chainLo n).xAt n = s.cfg.wrap n ((s.xAt n).toNat + s.lowAt n) := by
  simp [State.chainLo, h]

theorem counts_chainLo (m : Nat) : (s.chainLo n).counts m e = s.counts m e := by
  rw [State.chainLo_eq]; rfl

/-- A held-back update goes first, and the occurrence then counts as it would after that update alone (R204). -/
theorem count_chainLo (counter : s.cfg.isCounter n = true) (cycle : s.cfg.isCycle n = false)
    (h : s.counts n e = true) : (s.chainLo n).count n e = s.count n e := by
  have config : (s.chainLo n).cfg = s.cfg := (sameSetup_chainLo s n).cfg
  have cleared : (s.chainLo n).lowAt n = 0 := by rw [chainLo_lowAt, if_pos rfl]
  rw [count_of_counts counter cycle h, count_of_counts (by rwa [config]) (by rwa [config])
    ((counts_chainLo n).trans h), chainLo_of_lowAt_eq_zero cleared, config]

/-- Settles O43: with nothing held back and nothing to chain, counting is an addition; what is held back is made
first. -/
theorem countAddsAndFlags : Obligations.CountAddsAndFlags := by
  unfold Obligations.CountAddsAndFlags
  intro s n e counter cycle counted
  refine ⟨fun nothingHeld unchained => ?_, fun held => ?_⟩
  · have added : s.count n e = s.addTo n (s.cfg.incr n e) := by
      rw [count_of_counts counter cycle counted, chainLo_of_lowAt_eq_zero nothingHeld, countBy_eq_addTo unchained]
    refine ⟨_, congrArg Host.Outcome.next added, ?_, fun k hk => ?_, fun k hk => ?_, ?_⟩
    · rw [addTo_xAt, if_pos rfl]
    · rw [addTo_xAt, if_neg (Ne.symm hk)]
    · rw [addTo_ovsBit]
      simp [hk]
    · rw [State.addTo_eq]
  · refine ⟨s.chainLo n, rfl, chainLo_xAt_self held, fun k hk => chainLo_xAt_ne hk, fun k hk => ?_, ?_,
      fun k hk => ?_, ?_, (counts_chainLo n).trans counted, ?_⟩
    · rw [chainLo_ovsBit]
      simp [hk, held]
    · rw [chainLo_lowAt, if_pos rfl]
    · rw [chainLo_lowAt, if_neg (Ne.symm hk)]
    · rw [State.chainLo_eq]
    · exact congrArg Host.Outcome.next (count_chainLo counter cycle counted).symm

/-! ### Monitors that are not counters -/

theorem monitors_eq_true : s.monitors n e = true ↔ s.st = .run ∧ s.enabled n = true
    ∧ s.prohibited e.opst = false ∧ s.cfg.eventSel n (s.typerAt n) (s.filtrAt n) e = true := by
  simp [State.monitors, and_assoc]

/-- Where the PMU monitors the change, the monitor takes the value, and its flag where it enters its overflow
condition (R152, R153). -/
theorem monitorUpdate_of_monitors {v : DWord} {ovf : Bool} (impl : s.cfg.impl n = true)
    (notCounter : s.cfg.isCounter n = false) (h : s.monitors n e = true) : s.monitorUpdate n v ovf e
      = if s.cfg.hasOvf n && ovf then (s.putX n (s.cfg.wrap n v.toNat)).raiseOvs n
        else s.putX n (s.cfg.wrap n v.toNat) := by
  simp [State.monitorUpdate, impl, notCounter, h]

theorem monitorUpdate_of_ignored {v : DWord} {ovf : Bool}
    (h : s.cfg.impl n = false ∨ s.cfg.isCounter n = true ∨ s.monitors n e = false) :
    s.monitorUpdate n v ovf e = s := by
  obtain h | h | h := h <;> simp [State.monitorUpdate, h]

/-- Settles O45: the conditions for monitoring a change, and the update where they hold. -/
theorem monitorUpdateStoresValue : Obligations.MonitorUpdateStoresValue := by
  unfold Obligations.MonitorUpdateStoresValue
  intro s n v ovf e
  refine ⟨fun impl notCounter run enabled allowed selected => ?_, fun reason => ?_⟩
  · have updated := monitorUpdate_of_monitors (v := v) (ovf := ovf) impl notCounter
      (monitors_eq_true.2 ⟨run, enabled, allowed, selected⟩)
    refine ⟨_, congrArg Host.Outcome.next updated, ?_⟩
    cases s.cfg.hasOvf n && ovf with
    | false =>
      refine ⟨?_, fun k hk => ?_, fun k _ => ?_, rfl⟩
      · simp
      · simp [Ne.symm hk]
      · simp [State.ovsBit]
    | true =>
      refine ⟨?_, fun k hk => ?_, fun k hk => ?_, rfl⟩
      · simp
      · simp [Ne.symm hk]
      · rw [if_pos rfl, raiseOvs_ovsBit]
        simp [State.ovsBit, hk]
  · refine congrArg Host.Outcome.next (monitorUpdate_of_ignored ?_)
    have unmonitored (h : ¬ s.monitors n e = true) : s.monitors n e = false := Bool.eq_false_iff.2 h
    rw [monitors_eq_true] at unmonitored
    obtain h | h | h | h | h | h := reason
    · exact .inl h
    · exact .inr (.inl h)
    all_goals exact .inr (.inr (unmonitored (by simp [h])))

end Sys2Proof.Machine
end

section
/-! The machine left to itself (R14, R143, assumption log 8): each idle step makes one held-back update or lets one
pending write take effect, and the next one settles. -/

set_option Elab.async false

namespace Sys2Proof.Machine

variable {s : State} {n : Nat}

/-! ### The list of held-back updates -/

/-- The first pair of a canonical table is what its key reads, and it is no default. -/
theorem Sparse.get_head_of_wf {α : Type} [DecidableEq α] {d v : α} {m : List (Nat × α)}
    (h : Sparse.wf d ((n, v) :: m) = true) : Sparse.get d ((n, v) :: m) n ≠ d := by
  simp only [Sparse.wf, Bool.and_eq_true, List.all_cons, decide_eq_true_eq] at h
  rw [Sparse.get, if_pos rfl]
  exact h.2.1

/-- Writing the default at the first key of a canonical table drops that pair and no other. -/
theorem Sparse.set_head_of_wf {α : Type} [DecidableEq α] {d v : α} {m : List (Nat × α)}
    (h : Sparse.wf d ((n, v) :: m) = true) : Sparse.set d ((n, v) :: m) n d = m := by
  simp only [Sparse.wf, Bool.and_eq_true] at h
  have later := (Sparse.sorted_cons.1 h.1).1
  have kept : m.filter (fun p => p.1 != n) = m :=
    List.filter_eq_self.2 fun p hp => by simpa using (Nat.ne_of_gt (later p hp))
  simp [Sparse.set, Sparse.erase, kept]

theorem chainLo_lowPend_of_head {a : Nat} {rest : List (Nat × Nat)} (h : s.lowPend = (n, a) :: rest)
    (hwf : Sparse.wf 0 s.lowPend = true) : (s.chainLo n).lowPend = rest := by
  rw [h] at hwf
  have held : s.lowAt n ≠ 0 := by
    rw [State.lowAt, h]
    exact Sparse.get_head_of_wf hwf
  rw [State.chainLo_eq]
  simp only [if_neg held, h, Sparse.set_head_of_wf hwf]

theorem chainLo_lowPend_wf (h : Sparse.wf 0 s.lowPend = true) : Sparse.wf 0 (s.chainLo n).lowPend = true := by
  unfold State.chainLo
  split
  · exact h
  · rw [State.putLow_lowPend]
    exact Sparse.wf_set h

/-! ### Idle steps -/

/-- A configured machine that the environment leaves alone, with no second half of a split access to come. -/
structure State.Quiet (s : State) : Prop where
  wf : s.cfg.wf = true
  inputs : s.inputs = []
  splits : s.splits = []
  low : Sparse.wf 0 s.lowPend = true

/-- How many held-back updates and pending writes there are. -/
def State.waiting (s : State) : Nat := s.lowPend.length + s.pend.length

theorem State.Quiet.congr {t : State} (h : s.Quiet) (cfg : t.cfg = s.cfg) (inputs : t.inputs = s.inputs)
    (splits : t.splits = s.splits) (low : Sparse.wf 0 t.lowPend = true) : t.Quiet :=
  ⟨cfg ▸ h.wf, inputs ▸ h.inputs, splits ▸ h.splits, low⟩

theorem rearm_pending (s : State) : s.rearm.lowPend = s.lowPend ∧ s.rearm.pend = s.pend := by
  unfold State.rearm
  split <;> exact ⟨rfl, rfl⟩

theorem State.Quiet.rearm (h : s.Quiet) : s.rearm.Quiet := by
  unfold State.rearm
  split
  · exact h
  · exact h.congr rfl rfl rfl h.low

theorem rearm_settled (h : s.st = s.opState) : s.rearm.st = s.rearm.opState := by
  unfold State.rearm
  split <;> exact h

/-- The step of a quiet machine is its idle step. -/
theorem State.Quiet.step_eq {t : State} (h : s.Quiet) (idle : s.idle = .next t) : step s = .next t.rearm := by
  simp [step, h.wf, State.advance, h.inputs, idle, afterStep]

theorem State.Quiet.idle_chainLo {a : Nat} {rest : List (Nat × Nat)} (h : s.Quiet)
    (hl : s.lowPend = (n, a) :: rest) : s.idle = .next (s.chainLo n) := by
  simp [State.idle, h.splits, hl]

theorem State.Quiet.idle_takeEffect {p : PendEntry} {rest : List PendEntry} (h : s.Quiet)
    (hl : s.lowPend = []) (hp : s.pend = p :: rest) : s.idle = .next (s.takeEffect p.reg) := by
  simp [State.idle, h.splits, hl, hp]

/-- A commit with no update held back, of a quiet machine, holds none back and leaves it quiet. -/
theorem State.Quiet.commit (h : s.Quiet) (hl : s.lowPend = []) (r : MonReg) (v : DWord) :
    (s.commit r v).Quiet ∧ (s.commit r v).lowPend = [] := by
  cases r with
  | cntr n =>
    have nothingHeld : s.chainLo n = s := chainLo_of_lowAt_eq_zero (by rw [State.lowAt, hl]; rfl)
    have low : (s.commit (.cntr n) v).lowPend = [] := by
      rw [State.commit_cntr_eq, nothingHeld]; exact hl
    refine ⟨h.congr ?_ ?_ ?_ (by rw [low]; rfl), low⟩ <;> rw [State.commit_cntr_eq]
  | typer n => exact ⟨h.congr rfl rfl rfl h.low, hl⟩
  | filtr n => exact ⟨h.congr rfl rfl rfl h.low, hl⟩

/-- While something waits, an idle step makes the first held-back update or, with none, the oldest pending write. -/
theorem State.Quiet.idle_progress {k : Nat} (h : s.Quiet) (hk : s.waiting = k + 1) :
    ∃ t, s.idle = .next t ∧ t.Quiet ∧ t.waiting = k := by
  unfold State.waiting at hk
  cases hl : s.lowPend with
  | cons p rest =>
    obtain ⟨n, a⟩ := p
    have low := chainLo_lowPend_of_head hl h.low
    refine ⟨_, h.idle_chainLo hl, h.congr ?_ ?_ ?_ (chainLo_lowPend_wf h.low), ?_⟩
    · rw [State.chainLo_eq]
    · rw [State.chainLo_eq]
    · rw [State.chainLo_eq]
    · rw [State.waiting, low, pend_of_counts (chainLo_counts s n)]
      rw [hl, List.length_cons] at hk
      omega
  | nil =>
    cases hp : s.pend with
    | nil => simp [hl, hp] at hk
    | cons p rest =>
      have taken : s.takeEffect p.reg = State.commit { s with pend := rest } p.reg p.val :=
        takeEffect_of_pend (l := []) hp (List.forall_mem_nil _)
      have removed : State.Quiet { s with pend := rest } := h.congr rfl rfl rfl h.low
      obtain ⟨quiet, low⟩ := removed.commit hl p.reg p.val
      refine ⟨_, h.idle_takeEffect hl hp, taken ▸ quiet, ?_⟩
      rw [State.waiting, taken, low, commit_pend]
      simpa [hl, hp] using hk

/-- With nothing left waiting, an idle step settles, or it is one of the message's, which leaves the effective state
the operating state. -/
theorem State.Quiet.idle_settles (h : s.Quiet) (hl : s.lowPend = []) (hp : s.pend = []) :
    ∃ t, s.idle = .next t ∧ t.pend = [] ∧ t.lowPend = [] ∧ t.st = t.opState := by
  by_cases settled : s.st = s.opState
  · by_cases busy : s.msiBusy = true
    · refine ⟨s.used.msiDone (s.drawn.getLsbD 0), by simp [State.idle, h.splits, hl, hp, settled, busy], ?_⟩
      rw [State.msiDone_eq s.used _ busy]
      exact ⟨hp, hl, settled⟩
    · refine ⟨s.msiStart, by simp [State.idle, h.splits, hl, hp, settled, busy], ?_⟩
      unfold State.msiStart
      split <;> exact ⟨hp, hl, settled⟩
  · exact ⟨s.settle, by simp [State.idle, h.splits, hl, hp, settled], hp, hl, rfl⟩

/-! ### The bound -/

theorem steps_succ {t : State} (h : step s = .next t) (k : Nat) : s.steps (k + 1) = t.steps k := by
  conv_lhs => unfold State.steps
  rw [h]

/-- One step for each that waits and one more, by induction on how many wait. -/
theorem State.Quiet.steps_settle (k : Nat) (h : s.Quiet) (hk : s.waiting = k) :
    ∃ t, s.steps (k + 1) = some t ∧ t.pend = [] ∧ t.lowPend = [] ∧ t.st = t.opState := by
  induction k generalizing s with
  | zero =>
    obtain ⟨hl, hp⟩ := Nat.add_eq_zero_iff.1 hk
    obtain ⟨t, idle, pend, low, settled⟩ :=
      h.idle_settles (List.length_eq_zero_iff.1 hl) (List.length_eq_zero_iff.1 hp)
    obtain ⟨lowKept, pendKept⟩ := rearm_pending t
    exact ⟨t.rearm, steps_succ (h.step_eq idle) 0, pendKept.trans pend, lowKept.trans low,
      rearm_settled settled⟩
  | succ k ih =>
    obtain ⟨t, idle, quiet, waiting⟩ := h.idle_progress hk
    obtain ⟨lowKept, pendKept⟩ := rearm_pending t
    have left : t.rearm.waiting = k := by rw [State.waiting, lowKept, pendKept]; exact waiting
    rw [steps_succ (h.step_eq idle)]
    exact ih quiet.rearm left

/-- Settles O51: a quiet machine stays quiet, and each idle step leaves one fewer waiting. -/
theorem quietMachineSettles : Obligations.QuietMachineSettles := by
  unfold Obligations.QuietMachineSettles
  intro s wf inputs splits low
  exact State.Quiet.steps_settle _ ⟨wf, inputs, splits, low⟩ rfl

end Sys2Proof.Machine
end

section
/-! The operating state (R181, R182), and the cycles that the cycle counter counts, with and without its prescaler
(R190, R191, R193). -/

set_option Elab.async false

namespace Sys2Proof.Machine

variable {s t : State} {n : Nat} {c : Occ}

/-! ### The operating state -/

theorem applicable_eq_true : s.applicable n = true ↔ s.cfg.impl n = true ∧ s.cfg.hasOvf n = true
    ∧ ¬ (s.cfg.chain = true ∧ s.cfg.fzoIgnoresChainedLow = true ∧ s.chained n = true)
    ∧ ¬ (s.cfg.cc = true ∧ n = 31 ∧ s.cfg.ccInWait = true) := by
  simp [State.applicable, Cfg.isCycle, and_assoc, or_assoc, imp_iff_not_or]

theorem chained_eq_true : s.chained n = true ↔ n % 2 = 0 ∧ s.cfg.impl (n + 1) = true
    ∧ s.cfg.isCounter (n + 1) = true
    ∧ s.cfg.isChain (n + 1) (s.typerAt (n + 1)) (s.filtrAt (n + 1)) = true := by
  simp [State.chained, and_assoc]

/-- The PMU freezes by any applicable flag: a monitor with an applicable one is implemented, so it is looked at. -/
theorem frozenBy_eq_true : s.frozenBy = true ↔ ∃ n, s.applicable n = true ∧ s.ovsBit n = true := by
  simp only [State.frozenBy, List.any_eq_true, Bool.and_eq_true]
  constructor
  · rintro ⟨n, -, frozen⟩
    exact ⟨n, frozen⟩
  · rintro ⟨n, applicable, flagged⟩
    obtain ⟨impl, -⟩ := applicable_eq_true.1 applicable
    exact ⟨n, Cfg.impl_mem_indices impl, applicable, flagged⟩

theorem frozenBy_eq_false : s.frozenBy = false ↔ ∀ n, s.applicable n = true → s.ovsBit n = false := by
  simp [← Bool.not_eq_true, frozenBy_eq_true]

theorem opState_of_disabled (h : s.pmcr.e = false) : s.opState = .stop := by
  rw [State.opState, if_pos h]

theorem opState_of_enabled (h : s.pmcr.e = true) :
    s.opState = if s.cfg.fzo && s.pmcr.fzo && s.frozenBy then .wait else .run := by
  simp [State.opState, h]

/-- Settles O50: with E and an implemented FZO set, the state is WAIT or RUN as an applicable flag is set or not. -/
theorem operatingStateTable : Obligations.OperatingStateTable := by
  unfold Obligations.OperatingStateTable
  intro s
  refine ⟨opState_of_disabled, fun enabled noFreeze => ?_, fun enabled hasFzo fzo => ?_,
    fun n => applicable_eq_true, fun n => chained_eq_true, rfl⟩
  · rw [opState_of_enabled enabled, noFreeze]
    rfl
  · rw [← frozenBy_eq_true, ← frozenBy_eq_false, opState_of_enabled enabled, hasFzo, fzo]
    cases s.frozenBy <;> simp

/-! ### Cycles without the prescaler -/

/-- The conditions of R190 for a cycle to count, all of them. -/
theorem cycleCounts_eq_true : s.cycleCounts c = true ↔
    (s.st = .run ∨ s.st = .wait ∧ s.cfg.ccInWait = true) ∧ s.enabled 31 = true
    ∧ ¬ (s.pmcr.dp = true ∧ c.second = true) ∧ s.haltBlocked c = false
    ∧ s.cfg.eventSel 31 (s.typerAt 31) 0 c = true := by
  simp [State.cycleCounts, and_assoc, imp_iff_not_or]

theorem cycle_of_ignored (h : s.cfg.cc = false ∨ s.cycleCounts c ≠ true) : s.cycle c = s := by
  obtain h | h := h <;> simp [State.cycle, h]

theorem cycle_of_unscaled (cc : s.cfg.cc = true) (counted : s.cycleCounts c = true)
    (unscaled : (s.cfg.ccd && s.pmcr.d) = false) : s.cycle c = s.addTo 31 1 := by
  simp [State.cycle, cc, counted, unscaled]

/-- Settles O48: a cycle that counts is an addition, and each reason contradicts one of the conditions of R190. -/
theorem cycleCountsOrIsIgnored : Obligations.CycleCountsOrIsIgnored := by
  unfold Obligations.CycleCountsOrIsIgnored
  intro s c
  refine ⟨fun cc counted unscaled => ?_, fun reason => ?_⟩
  · refine ⟨_, congrArg Host.Outcome.next (cycle_of_unscaled cc counted unscaled), ?_, fun k hk => ?_,
      fun k hk => ?_, ?_⟩
    · rw [addTo_xAt, if_pos rfl]
    · rw [addTo_xAt, if_neg (Ne.symm hk)]
    · rw [addTo_ovsBit]
      simp [hk]
    · rw [State.addTo_eq]
  · refine congrArg Host.Outcome.next (cycle_of_ignored ?_)
    rw [ne_eq, cycleCounts_eq_true]
    obtain noCounter | stopped | ⟨waiting, noWait⟩ | disabled | second := reason
    · exact .inl noCounter
    · exact .inr (by simp [stopped])
    · exact .inr (by simp [waiting, noWait])
    · exact .inr (by simp [disabled])
    · exact .inr (by simp [second])

/-! ### Cycles with the prescaler -/

/-- The state at another phase of the prescaler, with these inputs still to come; what the re-arm after a step may
write is `b`. -/
def State.atPhase (s : State) (phase : BitVec 6) (rest : List Input) (b : Bool) : State :=
  { s with presc := phase, inputs := rest, irqPrev := b }

@[simp] theorem State.atPhase_presc (s : State) (phase : BitVec 6) (rest : List Input) (b : Bool) :
    (s.atPhase phase rest b).presc = phase := rfl

@[simp] theorem State.atPhase_inputs (s : State) (phase : BitVec 6) (rest : List Input) (b : Bool) :
    (s.atPhase phase rest b).inputs = rest := rfl

@[simp] theorem State.atPhase_cycleCounts (s : State) (phase : BitVec 6) (rest : List Input) (b : Bool) (c : Occ) :
    (s.atPhase phase rest b).cycleCounts c = s.cycleCounts c := rfl

@[simp] theorem State.atPhase_atPhase (s : State) (p q : BitVec 6) (l rest : List Input) (b d : Bool) :
    (s.atPhase p l b).atPhase q rest d = s.atPhase q rest d := rfl

theorem State.atPhase_addTo (s : State) (phase : BitVec 6) (rest : List Input) (b : Bool) (n a : Nat) :
    (s.atPhase phase rest b).addTo n a = (s.addTo n a).atPhase phase rest b := by
  simp only [State.addTo_eq]
  rfl

@[simp] theorem addTo_cycleCounts (s : State) (n a : Nat) (c : Occ) :
    (s.addTo n a).cycleCounts c = s.cycleCounts c := by
  rw [State.addTo_eq]
  rfl

/-- A configured machine whose cycle counter counts by its prescaler (R193). -/
structure State.Prescaled (s : State) : Prop where
  wf : s.cfg.wf = true
  cc : s.cfg.cc = true
  ccd : s.cfg.ccd = true
  d : s.pmcr.d = true

theorem State.Prescaled.atPhase (h : s.Prescaled) (phase : BitVec 6) (rest : List Input) (b : Bool) :
    (s.atPhase phase rest b).Prescaled :=
  ⟨h.wf, h.cc, h.ccd, h.d⟩

theorem State.Prescaled.addTo (h : s.Prescaled) (n a : Nat) : (s.addTo n a).Prescaled := by
  rw [State.addTo_eq]
  exact ⟨h.wf, h.cc, h.ccd, h.d⟩

theorem rearm_atPhase (s : State) : ∃ b, s.rearm = s.atPhase s.presc s.inputs b := by
  unfold State.rearm
  split
  · exact ⟨s.irqPrev, rfl⟩
  · exact ⟨false, rfl⟩

/-- A counted cycle advances the phase, and counts where that wraps (R193). -/
theorem State.Prescaled.cycle_eq (h : s.Prescaled) (counted : s.cycleCounts c = true) : s.cycle c
    = (if s.presc + 1 = 0 then s.addTo 31 1 else s).atPhase (s.presc + 1) s.inputs s.irqPrev := by
  simp only [State.cycle, h.cc, h.ccd, h.d, counted, Bool.and_self, if_true]
  split
  · exact s.atPhase_addTo (s.presc + 1) s.inputs s.irqPrev 31 1
  · rfl

/-- A step that takes a counted cycle from the inputs: the cycle, then the re-arm. -/
theorem State.Prescaled.step_eq (h : s.Prescaled) (counted : s.cycleCounts c = true) {rest : List Input}
    (inputs : s.inputs = .cycle c :: rest) : ∃ b, step s
      = .next ((if s.presc + 1 = 0 then s.addTo 31 1 else s).atPhase (s.presc + 1) rest b) := by
  have cycled : (s.atPhase s.presc rest s.irqPrev).cycle c
      = (if s.presc + 1 = 0 then s.addTo 31 1 else s).atPhase (s.presc + 1) rest s.irqPrev := by
    refine ((h.atPhase s.presc rest s.irqPrev).cycle_eq counted).trans ?_
    rw [State.atPhase_addTo]
    by_cases wraps : s.presc + 1 = 0
    · simp only [State.atPhase_presc, wraps, if_true]; rfl
    · simp only [State.atPhase_presc, wraps, if_false]; rfl
  obtain ⟨b, rearmed⟩ := rearm_atPhase ((s.atPhase s.presc rest s.irqPrev).cycle c)
  have stepped : step s = .next ((s.atPhase s.presc rest s.irqPrev).cycle c).rearm := by
    simp only [step, h.wf, if_true, State.advance, inputs]
    rfl
  exact ⟨b, by rw [stepped, rearmed, cycled]; rfl⟩

/-- A run of more than no steps begins with one that gives a next state. -/
theorem step_of_steps {j : Nat} (h : s.steps (j + 1) = some t) : ∃ u, step s = .next u ∧ u.steps j = some t := by
  unfold State.steps at h
  split at h
  · exact ⟨_, ‹_›, h⟩
  · cases h
  · cases h

theorem steps_add {j : Nat} (h : s.steps j = some t) (k : Nat) : s.steps (j + k) = t.steps k := by
  induction j generalizing s with
  | zero =>
    obtain rfl : s = t := Option.some.inj h
    rw [Nat.zero_add]
  | succ j ih =>
    obtain ⟨u, first, later⟩ := step_of_steps h
    rw [Nat.succ_add, steps_succ first, ih later]

/-- Counted cycles that do not bring the phase to 64 only advance it, by induction on the cycles. -/
theorem State.Prescaled.steps_below_wrap {cs : List Occ} {rest : List Input} (h : s.Prescaled)
    (counted : ∀ c ∈ cs, s.cycleCounts c = true) (inputs : s.inputs = cs.map .cycle ++ rest)
    (below : s.presc.toNat + cs.length < 64) :
    ∃ b, s.steps cs.length = some (s.atPhase (s.presc + BitVec.ofNat 6 cs.length) rest b) := by
  induction cs generalizing s with
  | nil =>
    obtain rfl : s.inputs = rest := inputs
    have here : s.atPhase (s.presc + 0#6) s.inputs s.irqPrev = s := by rw [BitVec.add_zero]; rfl
    exact ⟨s.irqPrev, congrArg some here.symm⟩
  | cons c cs ih =>
    rw [List.length_cons] at below ⊢
    have noWrap : ¬ s.presc + 1 = 0 := by bv_omega
    have next : (s.presc + 1).toNat + cs.length < 64 := by bv_omega
    have phase : s.presc + 1 + BitVec.ofNat 6 cs.length = s.presc + BitVec.ofNat 6 (cs.length + 1) := by
      rw [BitVec.ofNat_add, BitVec.add_assoc, BitVec.add_comm 1]; rfl
    obtain ⟨b, stepped⟩ := h.step_eq (rest := cs.map .cycle ++ rest) (counted c List.mem_cons_self)
      (by simp [inputs])
    rw [if_neg noWrap] at stepped
    obtain ⟨b', done⟩ := ih (h.atPhase (s.presc + 1) (cs.map .cycle ++ rest) b)
      (fun d hd => counted d (List.mem_cons_of_mem c hd)) rfl next
    exact ⟨b', by rw [steps_succ stepped, done, State.atPhase_presc, phase, State.atPhase_atPhase]⟩

/-- 64 counted cycles: those up to the wrap of the phase, the one that wraps and counts, and those that bring the
phase back (R193). -/
theorem State.Prescaled.steps_64 {cs : List Occ} {rest : List Input} (h : s.Prescaled) (length : cs.length = 64)
    (counted : ∀ c ∈ cs, s.cycleCounts c = true) (inputs : s.inputs = cs.map .cycle ++ rest) :
    ∃ b, s.steps 64 = some ((s.addTo 31 1).atPhase s.presc rest b) := by
  obtain ⟨before, c, after, rfl, hb⟩ : ∃ before c after, cs = before ++ c :: after
      ∧ before.length = 63 - s.presc.toNat := by
    refine ⟨cs.take (63 - s.presc.toNat), cs[63 - s.presc.toNat], cs.drop (63 - s.presc.toNat + 1), ?_, ?_⟩
    · rw [List.getElem_cons_drop, List.take_append_drop]
    · rw [List.length_take]; omega
  have phase : s.presc.toNat < 64 := s.presc.isLt
  have ha : after.length = s.presc.toNat := by
    rw [List.length_append, List.length_cons] at length; omega
  have last : s.presc + BitVec.ofNat 6 before.length + 1 = 0 := by rw [hb]; bv_omega
  have back : (0 : BitVec 6) + BitVec.ofNat 6 after.length = s.presc := by
    rw [ha, BitVec.ofNat_toNat, BitVec.setWidth_eq]; exact BitVec.zero_add _
  obtain ⟨b₁, upToWrap⟩ := h.steps_below_wrap (cs := before) (rest := .cycle c :: (after.map .cycle ++ rest))
    (fun d hd => counted d (List.mem_append_left _ hd)) (by simp [inputs]) (by omega)
  have atWrap := h.atPhase (s.presc + BitVec.ofNat 6 before.length) (.cycle c :: (after.map .cycle ++ rest)) b₁
  obtain ⟨b₂, wraps⟩ := atWrap.step_eq (counted c (by simp)) rfl
  rw [State.atPhase_presc, last, if_pos rfl, State.atPhase_addTo, State.atPhase_atPhase] at wraps
  obtain ⟨b₃, bringBack⟩ := ((h.addTo 31 1).atPhase 0 (after.map .cycle ++ rest) b₂).steps_below_wrap (cs := after)
    (fun d hd => by simpa using counted d (by simp [hd])) rfl (by rw [State.atPhase_presc, ha]; simpa using phase)
  refine ⟨b₃, ?_⟩
  have total : 64 = before.length + (after.length + 1) := by omega
  rw [total, steps_add upToWrap, steps_succ wraps, bringBack, State.atPhase_presc, back, State.atPhase_atPhase]

/-- Settles O49: 64 counted cycles are one addition, with the phase where it was. -/
theorem prescalerCountsOncePer64Cycles : Obligations.PrescalerCountsOncePer64Cycles := by
  unfold Obligations.PrescalerCountsOncePer64Cycles
  intro s cs rest wf cc ccd d length counted inputs
  have prescaled : s.Prescaled := ⟨wf, cc, ccd, d⟩
  obtain ⟨b, done⟩ := prescaled.steps_64 length counted inputs
  refine ⟨_, done, rfl, ?_, fun k hk => ?_, fun k hk => ?_, ?_⟩
  · exact (addTo_xAt 1 31).trans (if_pos rfl)
  · exact (addTo_xAt 1 k).trans (if_neg (Ne.symm hk))
  · refine (addTo_ovsBit 1 k).trans ?_
    simp [hk]
  · rw [State.addTo_eq]
    rfl

end Sys2Proof.Machine
end

section
/-! Chained counters (R184, R200 to R204): what an overflow of the even counter does to the odd one, in the same step
or before the even one's own update. -/

set_option Elab.async false

namespace Sys2Proof

/-- Every value a short table gives, its default too, has what they all have. -/
theorem lookupD_of_forall {α : Type} {d : α} {l : List (Nat × α)} {P : α → Prop}
    (h : ∀ a ∈ d :: l.map Prod.snd, P a) (n : Nat) : P (lookupD d l n) := by
  induction l with
  | nil => exact h d List.mem_cons_self
  | cons p rest ih =>
    simp only [List.map_cons, List.forall_mem_cons] at h ih
    obtain ⟨default, first, later⟩ := h
    unfold lookupD
    split
    · exact first
    · exact ih ⟨default, later⟩

/-- An occurrence that counts adds at least one (R147). -/
theorem Cfg.incr_pos {c : Cfg} (h : c.wf = true) (n : Nat) (e : Occ) : 1 ≤ c.incr n e := by
  unfold Cfg.incr
  split
  · rename_i m hm
    have monitor := (Cfg.wf_mon h (Cfg.mon_mem hm).1).1
    simp only [MonCfg.wf, Bool.and_eq_true, List.all_eq_true, decide_eq_true_eq] at monitor
    obtain ⟨⟨⟨-, amounts⟩, -⟩, -⟩ := monitor
    exact lookupD_of_forall (P := fun k => 1 ≤ k) (fun k hk => (amounts k hk).1) e.id
  · exact Nat.le_refl 1

namespace Machine

variable {s : State} {n : Nat} {e : Occ}

/-! ### The odd counter -/

/-- Odd counter n+1 is enabled and Debug state does not block its counting of a CHAIN occurrence (R202). -/
def State.oddCounts (s : State) (n : Nat) (e : Occ) : Bool :=
  s.enabled (n + 1) && !s.haltBlocked (s.cfg.chainOcc e)

/-- Odd counter n+1 adds the CHAIN occurrence, or it does not. -/
def State.chainTo (s : State) (n : Nat) (counted : Bool) : State :=
  if counted then s.addTo (n + 1) 1 else s

theorem chain_of_chained (h : s.chained n = true) : s.cfg.chain = true := by
  obtain ⟨-, -, -, chain⟩ := chained_eq_true.1 h
  simp only [Cfg.isChain, Bool.and_eq_true] at chain
  exact chain.1

/-- Where the even counter counts the occurrence, the PMU runs and nothing prohibits its CHAIN occurrence. -/
theorem countsChain_of_counts (h : s.counts n e = true) : s.countsChain n e = s.oddCounts n e := by
  obtain ⟨run, -, allowed, -⟩ := counts_eq_true.1 h
  simp [State.countsChain, State.oddCounts, run, prohibited_eq_false.2 allowed]

theorem chainFrom_of_chained (chained : s.chained n = true) (counted : s.counts n e = true) :
    s.chainFrom n e = s.chainTo n (s.oddCounts n e) := by
  simp only [State.chainFrom, State.chainTo, chain_of_chained chained, chained, countsChain_of_counts counted,
    Bool.true_and]

theorem chainTo_eq (counted : Bool) : s.chainTo n counted =
    { s with x := (s.chainTo n counted).x, ovs := (s.chainTo n counted).ovs } := by
  cases counted
  · rfl
  · simp only [State.chainTo, if_true, State.addTo_eq]

theorem chainTo_xAt_odd (counted : Bool) : (s.chainTo n counted).xAt (n + 1)
    = if counted then s.cfg.wrap (n + 1) ((s.xAt (n + 1)).toNat + 1) else s.xAt (n + 1) := by
  cases counted
  · rfl
  · exact (addTo_xAt 1 (n + 1)).trans (if_pos rfl)

theorem chainTo_xAt_ne {k : Nat} (hk : k ≠ n + 1) (counted : Bool) : (s.chainTo n counted).xAt k = s.xAt k := by
  cases counted
  · rfl
  · exact (addTo_xAt 1 k).trans (if_neg (Ne.symm hk))

theorem chainTo_ovsBit (h : n + 1 < 256) (counted : Bool) (k : Nat) : (s.chainTo n counted).ovsBit k
    = (s.ovsBit k || (decide (k = n + 1) && counted
      && decide (2 ^ s.cfg.width (n + 1) ≤ (s.xAt (n + 1)).toNat + 1))) := by
  have bounded : (k = n + 1 ∧ k < 256) ↔ k = n + 1 := by omega
  cases counted
  · simp [State.chainTo]
  · refine (addTo_ovsBit 1 k).trans ?_
    simp only [bounded, Bool.and_true]

/-! ### Freezing -/

/-- The overflow flag of the even counter has just frozen the PMU. -/
def State.newlyFrozen (s : State) (before : OpSt) : Bool := decide (before ≠ .wait) && decide (s.opState = .wait)

/-- Odd counter n+1 counts the CHAIN occurrence of an overflow that froze the PMU or did not (R184, R202). -/
def State.chainCounts (s : State) (froze : Bool) (n : Nat) (e : Occ) : Bool :=
  s.oddCounts n e && (!froze || match s.cfg.chainOnFreeze with
    | .counted => true
    | .dropped => false
    | .either => s.drawn.getLsbD 0)

theorem chainCounts_of_forced {froze : Bool} (h : froze = false ∨ s.cfg.chainOnFreeze = .counted) :
    s.chainCounts froze n e = s.oddCounts n e := by
  obtain h | h := h <;> simp [State.chainCounts, h]

theorem chainCounts_of_dropped {froze : Bool} (h : froze = true) (dropped : s.cfg.chainOnFreeze = .dropped) :
    s.chainCounts froze n e = false := by
  simp [State.chainCounts, h, dropped]

theorem oddCounts_of_chainCounts {froze : Bool} (h : s.chainCounts froze n e = true) :
    s.enabled (n + 1) = true ∧ s.haltBlocked (s.cfg.chainOcc e) = false := by
  simp only [State.chainCounts, State.oddCounts, Bool.and_eq_true, Bool.not_eq_true'] at h
  exact h.1

theorem chainTo_used (counted : Bool) : s.used.chainTo n counted = (s.chainTo n counted).used := by
  cases counted
  · rfl
  · simp only [State.chainTo, if_true, State.addTo_eq]
    rfl

/-- The CHAIN occurrence of an overflow is counted as R184 says, and only `either` uses a free value. -/
theorem chainFromFrozen_of_chained (before : OpSt) (chained : s.chained n = true) (counted : s.counts n e = true) :
    s.chainFromFrozen before n e = if s.newlyFrozen before = true ∧ s.cfg.chainOnFreeze = .either
      then (s.chainTo n (s.chainCounts (s.newlyFrozen before) n e)).used
      else s.chainTo n (s.chainCounts (s.newlyFrozen before) n e) := by
  have fromHere := chainFrom_of_chained chained counted
  have fromUsed : s.used.chainFrom n e = (s.chainTo n (s.oddCounts n e)).used :=
    (chainFrom_of_chained (s := s.used) chained counted).trans (chainTo_used _)
  have froze : (s.cfg.chain && s.chained n && decide (before ≠ .wait) && decide (s.opState = .wait))
      = s.newlyFrozen before := by
    simp only [State.newlyFrozen, chain_of_chained chained, chained, Bool.true_and]
  rw [State.chainFromFrozen, froze, fromHere, fromUsed, State.chainCounts]
  cases s.newlyFrozen before with
  | false => simp
  | true =>
    cases s.cfg.chainOnFreeze with
    | counted => simp
    | dropped => simp [State.chainTo]
    | either => cases s.drawn.getLsbD 0 <;> simp [State.chainTo]

/-! ### Both counters in one step -/

theorem addTo_newlyFrozen {a : Nat} (overflow : 2 ^ s.cfg.width n ≤ (s.xAt n).toNat + a) (before : OpSt) :
    (s.addTo n a).newlyFrozen before = (s.raiseOvs n).newlyFrozen before := by
  simp only [State.addTo, if_pos overflow]
  rfl

theorem addTo_chainCounts (a : Nat) (froze : Bool) :
    (s.addTo n a).chainCounts froze n e = s.chainCounts froze n e := by
  rw [State.addTo_eq]
  rfl

theorem counts_addTo (a : Nat) : (s.addTo n a).counts n e = s.counts n e := by
  rw [State.addTo_eq]
  rfl

/-- An overflow of an even counter that is chained atomically (R202, R203): the even counter wraps and sets its
flag, and by whether that froze the PMU the odd one counts. -/
theorem count_of_atomic (counter : s.cfg.isCounter n = true) (cycle : s.cfg.isCycle n = false)
    (counted : s.counts n e = true) (nothingHeld : s.lowAt n = 0) (chained : s.chained n = true)
    (atomic : s.cfg.chainAtomic = true) (overflow : 2 ^ s.cfg.width n ≤ (s.xAt n).toNat + s.cfg.incr n e) :
    s.count n e = { (s.addTo n (s.cfg.incr n e)).chainTo n
        (s.chainCounts ((s.raiseOvs n).newlyFrozen s.opState) n e) with
      draws := if (s.raiseOvs n).newlyFrozen s.opState = true ∧ s.cfg.chainOnFreeze = .either then s.draws + 1
        else s.draws } := by
  have config : (s.addTo n (s.cfg.incr n e)).cfg = s.cfg := (sameSetup_addTo s n _).cfg
  have overflowed : s.count n e = (s.addTo n (s.cfg.incr n e)).chainFromFrozen s.opState n e := by
    rw [count_of_counts counter cycle counted, chainLo_of_lowAt_eq_zero nothingHeld]
    simp [State.countBy, overflow, atomic]
  have draws (b : Bool) : ((s.addTo n (s.cfg.incr n e)).chainTo n b).draws = s.draws := by
    rw [chainTo_eq, State.addTo_eq]
  rw [overflowed, chainFromFrozen_of_chained s.opState ((addTo_chained _).trans chained)
    ((counts_addTo _).trans counted), addTo_newlyFrozen overflow, addTo_chainCounts, config]
  split
  · rw [State.used, draws]
  · rw [← draws]

/-- Settles O46: the even counter's addition, then the odd one's, which leaves the even one as it is. -/
theorem atomicChainUpdatesBothCounters : Obligations.AtomicChainUpdatesBothCounters := by
  unfold Obligations.AtomicChainUpdatesBothCounters
  intro s n e wf counter cycle counted nothingHeld chained atomic overflow froze
  have config : (s.addTo n (s.cfg.incr n e)).cfg = s.cfg := (sameSetup_addTo s n _).cfg
  have odd : (s.addTo n (s.cfg.incr n e)).xAt (n + 1) = s.xAt (n + 1) := by
    rw [addTo_xAt, if_neg (Nat.ne_of_lt (Nat.lt_succ_self n))]
  have even : n < 256 := Cfg.impl_lt_256 wf (Cfg.impl_of_monIs counter)
  obtain ⟨-, oddImpl, -⟩ := chained_eq_true.1 chained
  have next : n + 1 < 256 := Cfg.impl_lt_256 wf oddImpl
  refine ⟨_, s.chainCounts froze n e,
    congrArg Host.Outcome.next (count_of_atomic counter cycle counted nothingHeld chained atomic overflow),
    chainCounts_of_forced, chainCounts_of_dropped, oddCounts_of_chainCounts, ?_, ?_, fun k hk hodd => ?_,
    fun k => ?_, rfl, ?_⟩
  · refine (chainTo_xAt_ne (Nat.ne_of_lt (Nat.lt_succ_self n)) _).trans ?_
    rw [addTo_xAt, if_pos rfl]
  · refine (chainTo_xAt_odd _).trans ?_
    rw [config, odd]
    rfl
  · refine (chainTo_xAt_ne hodd _).trans ?_
    rw [addTo_xAt, if_neg (Ne.symm hk)]
  · refine (chainTo_ovsBit next _ k).trans ?_
    have flagged : (k = n ∧ k < 256) ↔ k = n := by omega
    rw [addTo_ovsBit, config, odd]
    simp only [flagged, overflow, decide_true, Bool.and_true]
    rfl
  · rw [chainTo_eq, State.addTo_eq]

/-! ### The odd counter first -/

/-- An overflow of an even counter that is not chained atomically (R204): the odd counter counts, and the even one's
update is held back. -/
theorem count_of_nonAtomic (counter : s.cfg.isCounter n = true) (cycle : s.cfg.isCycle n = false)
    (counted : s.counts n e = true) (nothingHeld : s.lowAt n = 0) (chained : s.chained n = true)
    (separate : s.cfg.chainAtomic = false) (overflow : 2 ^ s.cfg.width n ≤ (s.xAt n).toNat + s.cfg.incr n e) :
    s.count n e = (s.chainTo n (s.oddCounts n e)).putLow n (s.cfg.incr n e) := by
  rw [count_of_counts counter cycle counted, chainLo_of_lowAt_eq_zero nothingHeld,
    ← chainFrom_of_chained chained counted]
  simp [State.countBy, overflow, separate, chain_of_chained chained, chained]

/-- Settles O47: the odd counter's addition with the even one's update held back, then that update. -/
theorem nonAtomicChainUpdatesOddCounterFirst : Obligations.NonAtomicChainUpdatesOddCounterFirst := by
  unfold Obligations.NonAtomicChainUpdatesOddCounterFirst
  intro s n e wf counter cycle counted nothingHeld chained separate overflow odd
  have even : n < 256 := Cfg.impl_lt_256 wf (Cfg.impl_of_monIs counter)
  obtain ⟨-, oddImpl, -⟩ := chained_eq_true.1 chained
  have next : n + 1 < 256 := Cfg.impl_lt_256 wf oddImpl
  have config : ((s.chainTo n odd).putLow n (s.cfg.incr n e)).cfg = s.cfg := by rw [chainTo_eq]; rfl
  have held : ((s.chainTo n odd).putLow n (s.cfg.incr n e)).lowAt n = s.cfg.incr n e := by
    rw [State.putLow_lowAt, if_pos rfl]
  have positive : s.cfg.incr n e ≠ 0 := Nat.ne_of_gt (Cfg.incr_pos wf n e)
  have lowAt {k : Nat} (hk : k ≠ n) : ((s.chainTo n odd).putLow n (s.cfg.incr n e)).lowAt k = s.lowAt k := by
    rw [State.putLow_lowAt, if_neg (Ne.symm hk), chainTo_eq]
    rfl
  have evenValue : ((s.chainTo n odd).putLow n (s.cfg.incr n e)).xAt n = s.xAt n :=
    chainTo_xAt_ne (Nat.ne_of_lt (Nat.lt_succ_self n)) odd
  refine ⟨(s.chainTo n odd).putLow n (s.cfg.incr n e), _,
    congrArg Host.Outcome.next (count_of_nonAtomic counter cycle counted nothingHeld chained separate overflow), rfl,
    held, fun k hk => lowAt hk, chainTo_xAt_odd odd, fun k hk => chainTo_xAt_ne hk odd, chainTo_ovsBit next odd, ?_,
    ?_, fun k hk => chainLo_xAt_ne hk, fun k => ?_, ?_, fun k hk => ?_, ?_⟩
  · rw [chainTo_eq]
    rfl
  · rw [chainLo_xAt_self (by rw [held]; exact positive), config, held, evenValue]
  · have flagged : (k = n ∧ k < 256) ↔ k = n := by omega
    rw [chainLo_ovsBit, held]
    simp only [flagged, ne_eq, positive, not_false_eq_true, decide_true, Bool.and_true]
  · rw [chainLo_lowAt, if_pos rfl]
  · rw [chainLo_lowAt, if_neg (Ne.symm hk), lowAt hk]
  · rw [State.chainLo_eq]

end Machine
end Sys2Proof
end

section
/-! Captures (R210 to R212, R320): what a capture saves, which monitors it zeroes afterwards, and when it saves
nothing. -/

set_option Elab.async false

namespace Sys2Proof.Machine

variable {s t u : State} {n k : Nat}

/-! ### The saved values -/

/-- Saving slot k writes no other saved value register (R211). -/
theorem captureSlot_svrAt_ne (h : n ≠ k) : (s.captureSlot n).svrAt k = s.svrAt k := by
  unfold State.captureSlot
  split <;> simp [h]

theorem captureSlot_eq (n : Nat) : s.captureSlot n =
    { s with svr := (s.captureSlot n).svr, draws := (s.captureSlot n).draws } :=
  State.foldl_captureSlot_eq [n] s

theorem foldl_captureSlot_svrAt_of_not_mem {l : List Nat} (h : k ∉ l) :
    (l.foldl State.captureSlot s).svrAt k = s.svrAt k := by
  induction l generalizing s with
  | nil => rfl
  | cons n l ih =>
    rw [List.mem_cons, not_or] at h
    obtain ⟨other, later⟩ := h
    rw [List.foldl_cons, ih later, captureSlot_svrAt_ne (Ne.symm other)]

/-- What slot k saves depends on the state before the capture, and on a free value. -/
theorem captureSlot_svrAt_congr (same : t = { s with svr := t.svr, draws := t.draws })
    (unwritten : t.svrAt k = s.svrAt k) :
    (t.captureSlot k).svrAt k = (State.captureSlot { s with draws := t.draws } k).svrAt k := by
  have slots : t.cfg = s.cfg := by rw [same]
  have values : t.xAt = s.xAt := by rw [same]; rfl
  have flags : t.ovs = s.ovs := by rw [same]
  unfold State.captureSlot
  dsimp only
  rw [slots]
  cases s.cfg.svrSlot k with
  | counterLo n => simp only [State.putSvr_svrAt, if_true, values]; rfl
  | counterHi n => simp only [State.putSvr_svrAt, if_true, values]; rfl
  | ovs m => simp [flags]
  | ssr => simp
  | syndrome m => simp only [State.used_svrAt, State.putSvr_svrAt, if_true]; rfl
  | unused => exact unwritten

/-- Saving the slots of a list without repetitions saves what each slot saves of the state before (R211). -/
theorem foldl_captureSlot_svrAt {l : List Nat} (once : l.Nodup) (h : k ∈ l) : ∃ d,
    (l.foldl State.captureSlot s).svrAt k = (State.captureSlot { s with draws := d } k).svrAt k := by
  induction l generalizing s with
  | nil => cases h
  | cons n l ih =>
    obtain ⟨fresh, once⟩ := List.nodup_cons.1 once
    rw [List.foldl_cons]
    by_cases here : k = n
    · subst here
      exact ⟨s.draws, foldl_captureSlot_svrAt_of_not_mem fresh⟩
    · obtain ⟨d, later⟩ := ih (s := s.captureSlot n) once ((List.mem_cons.1 h).resolve_left here)
      have step := captureSlot_svrAt_congr (k := k) (t := { s.captureSlot n with draws := d }) (s := s)
        (by rw [captureSlot_eq]) (captureSlot_svrAt_ne (Ne.symm here))
      exact ⟨d, later.trans step⟩

/-! ### The reset after a capture -/

/-- `t` is `s` with the selected monitors zero, their flags too, and with nothing of theirs held back. -/
structure Cleared (selected : Nat → Bool) (s t : State) : Prop where
  value : ∀ m, t.xAt m = if selected m then 0 else s.xAt m
  flag : ∀ m, t.ovsBit m = (s.ovsBit m && !selected m)
  held : ∀ m, t.lowAt m = if selected m then 0 else s.lowAt m

theorem Cleared.none (s : State) : Cleared (fun _ => false) s s where
  value _ := rfl
  flag _ := (Bool.and_true _).symm
  held _ := rfl

theorem Cleared.trans {p q : Nat → Bool} (h : Cleared p s t) (g : Cleared q t u) :
    Cleared (fun m => p m || q m) s u where
  value m := by rw [g.value, h.value]; cases p m <;> cases q m <;> rfl
  flag m := by rw [g.flag, h.flag]; cases p m <;> cases q m <;> simp
  held m := by rw [g.held, h.held]; cases p m <;> cases q m <;> rfl

theorem dropOvs_ovsBit (n k : Nat) : (s.dropOvs n).ovsBit k = (s.ovsBit k && !decide (n = k)) := by
  simp only [State.ovsBit, State.dropOvs, BitVec.getLsbD_and, BitVec.getLsbD_not, getLsbD_vecBit]
  by_cases h : k < 256
  · simp [h]
  · simp [BitVec.getLsbD_of_ge s.ovs k (Nat.not_lt.1 h)]

/-- PMSSRR selects monitor m, and it is implemented (R212, R326). -/
def State.selected (s : State) (m : Nat) : Bool := s.pmssrr.getLsbD m && s.cfg.impl m

/-- A selected monitor is zeroed with its flag, also where a held-back update has just set it (R204, R212). -/
theorem captureClear_cleared (s : State) (n : Nat) :
    Cleared (fun m => decide (m = n) && s.selected m) s (s.captureClear n) := by
  by_cases chosen : s.selected n = true
  · have zeroed : s.captureClear n = ((s.chainLo n).putX n 0).dropOvs n := if_pos chosen
    have only (m : Nat) : (decide (m = n) && s.selected m) = decide (n = m) := by
      by_cases h : m = n
      · simp [h, chosen]
      · simp [h, Ne.symm h]
    simp only [zeroed, only]
    refine ⟨fun m => ?_, fun m => ?_, fun m => ?_⟩
    · by_cases h : n = m
      · simp [h]
      · simp [h, chainLo_xAt_ne (Ne.symm h)]
    · have flagged : ((s.chainLo n).putX n 0).ovsBit m = (s.chainLo n).ovsBit m := rfl
      rw [dropOvs_ovsBit, flagged, chainLo_ovsBit]
      by_cases h : n = m
      · simp [h]
      · simp [h, Ne.symm h]
    · simp [chainLo_lowAt]
  · have kept : s.captureClear n = s := if_neg chosen
    have nothing (m : Nat) : (decide (m = n) && s.selected m) = false := by
      by_cases h : m = n
      · simpa [h] using chosen
      · simp [h]
    simp only [kept, nothing]
    exact .none s

theorem captureClear_selected (s : State) (n m : Nat) : (s.captureClear n).selected m = s.selected m := by
  have frame := State.foldl_captureClear_eq [n] s
  rw [List.foldl_cons, List.foldl_nil] at frame
  rw [frame]
  rfl

theorem foldl_captureClear_cleared (l : List Nat) (s : State) :
    Cleared (fun m => decide (m ∈ l) && s.selected m) s (l.foldl State.captureClear s) := by
  induction l generalizing s with
  | nil => simpa using Cleared.none s
  | cons n l ih =>
    have both := (captureClear_cleared s n).trans (ih (s.captureClear n))
    simpa only [captureClear_selected, ← Bool.and_or_distrib_right, List.mem_cons, Bool.decide_or,
      List.foldl_cons] using both

/-- PMSSRR has 64 bits, so the monitors of index 0 to 63 are all that it can select (R212). -/
theorem captureReset_cleared (s : State) : Cleared s.resetOnCapture s s.captureReset := by
  unfold State.captureReset
  split
  · rename_i has
    have reached : (fun m => decide (m ∈ List.range 64) && s.selected m) = s.resetOnCapture := by
      funext m
      by_cases h : m < 64
      · simp [State.selected, State.resetOnCapture, has, h]
      · simp [State.resetOnCapture, h, BitVec.getLsbD_of_ge s.pmssrr m (Nat.not_lt.1 h)]
    exact reached ▸ foldl_captureClear_cleared (List.range 64) s
  · rename_i hasNot
    have nothing : s.resetOnCapture = fun _ => false := by
      funext m
      simp [State.resetOnCapture, hasNot]
    exact nothing ▸ Cleared.none s

/-- The reset goes by the values and flags of the state before the saving, which only writes the saved values. -/
theorem captureReset_cleared_of_saved (saved : t = { s with svr := t.svr, draws := t.draws }) :
    Cleared s.resetOnCapture s t.captureReset where
  value m := by rw [(captureReset_cleared t).value, saved]; rfl
  flag m := by rw [(captureReset_cleared t).flag, saved]; rfl
  held m := by rw [(captureReset_cleared t).held, saved]; rfl

theorem captureReset_svr (s : State) : s.captureReset.svr = s.svr := by
  unfold State.captureReset
  split
  · rw [State.foldl_captureClear_eq]
  · rfl

/-! ### Captures that are allowed -/

theorem capture_of_allowed (ss : s.cfg.ss = true) (allowed : s.env.captureAllowed = true) :
    s.capture = ((List.range 64).foldl State.captureSlot s).captureReset := by
  simp [State.capture, ss, allowed]

/-- A capture saves every slot of the state before, and then resets what PMSSRR selects (R211, R212). -/
theorem captured_capture (ss : s.cfg.ss = true) (allowed : s.env.captureAllowed = true) : Captured s s.capture := by
  have reset := captureReset_cleared_of_saved (State.foldl_captureSlot_eq (List.range 64) s)
  rw [← capture_of_allowed ss allowed] at reset
  refine ⟨fun k hk => ?_, reset.value, reset.flag, reset.held⟩
  · have kept : s.capture.svrAt k = ((List.range 64).foldl State.captureSlot s).svrAt k := by
      rw [State.svrAt, State.svrAt, capture_of_allowed ss allowed, captureReset_svr]
    obtain ⟨d, value⟩ := foldl_captureSlot_svrAt (s := s) List.nodup_range (List.mem_range.2 hk)
    rw [kept, value]
    unfold State.captureSlot
    dsimp only
    cases s.cfg.svrSlot k with
    | counterLo n => exact (State.putSvr_svrAt _ k _ k).trans (if_pos rfl)
    | counterHi n => exact (State.putSvr_svrAt _ k _ k).trans (if_pos rfl)
    | ovs m =>
      intro q hq
      rw [State.putSvr_svrAt, if_pos rfl, getLsbD_window, decide_eq_true hq, Bool.true_and]
    | ssr => simp
    | syndrome m => trivial
    | unused => rfl

/-- What a write of PMSSCR does: a capture if bit SS is 1, else nothing (R320). -/
theorem exec_pmsscr_wr32 (p : Page) (ns : Bool) (v : Word) (s : State) : exec (.pmsscr ⟨p, ns, .wr32 v⟩) s
    = .next ((if v.getLsbD 0 then s.capture else s).answer .done) := rfl

theorem snapReq_of_signal (h : s.cfg.hasSnapReqSignal = true) : s.snapReq = s.capture := if_pos h

/-- Settles O29: both sources make the same capture, and the register's answers besides. -/
theorem captureSavesValuesAndResets : Obligations.CaptureSavesValuesAndResets := by
  unfold Obligations.CaptureSavesValuesAndResets
  intro s p ns v ss allowed
  have captured := captured_capture ss allowed
  refine ⟨fun one => ⟨s.capture.answer .done, ?_, captured, ?_⟩, fun signal => ⟨s.capture, ?_, captured, ?_⟩⟩
  · rw [exec_pmsscr_wr32, if_pos one]
  · rw [State.capture_frame]; rfl
  · exact congrArg Host.Outcome.next (snapReq_of_signal signal)
  · exact s.capture_frame

/-! ### Captures that are refused or absent -/

theorem capture_of_refused (ss : s.cfg.ss = true) (refused : s.env.captureAllowed = false) :
    s.capture = s.putSvr s.cfg.ssrIdx 1 := by
  simp [State.capture, ss, refused]

theorem capture_of_absent (h : s.cfg.ss = false) : s.capture = s := by
  simp [State.capture, h]

/-- Settles O30: a refused capture writes PMSSSR alone. -/
theorem refusedAndAbsentCaptures : Obligations.RefusedAndAbsentCaptures := by
  unfold Obligations.RefusedAndAbsentCaptures
  intro s p ns v
  refine ⟨fun ss refused one => ⟨(s.putSvr s.cfg.ssrIdx 1).answer .done, ?_, ?_, fun k hk => ?_, rfl⟩,
    fun ss refused signal => ⟨s.putSvr s.cfg.ssrIdx 1, ?_, ?_, fun k hk => ?_, rfl⟩, fun reason => ?_,
    fun reason => ?_, rfl⟩
  · rw [exec_pmsscr_wr32, if_pos one, capture_of_refused ss refused]
  · simp
  · simp [Ne.symm hk]
  · exact congrArg Host.Outcome.next ((snapReq_of_signal signal).trans (capture_of_refused ss refused))
  · simp
  · simp [Ne.symm hk]
  · rw [exec_pmsscr_wr32]
    obtain absent | zero := reason
    · rw [capture_of_absent absent, ite_self]
    · rw [zero]
      rfl
  · refine congrArg Host.Outcome.next ?_
    unfold State.snapReq
    obtain noSignal | absent := reason
    · rw [noSignal]
      rfl
    · rw [capture_of_absent absent, ite_self]

end Sys2Proof.Machine
end

section
/-! The saved values persist (R215): only a capture and the reset write them. -/

set_option Elab.async false

namespace Sys2Proof.Machine

/-- `t` has the saved values of `s`. -/
def SameSaved (s t : State) : Prop := t.svr = s.svr

variable {s t u : State}

@[refl] theorem SameSaved.refl (s : State) : SameSaved s s := rfl

@[trans] theorem SameSaved.trans (h : SameSaved s t) (k : SameSaved t u) : SameSaved s u := Eq.trans k h

theorem SameSaved.ite {c : Prop} [Decidable c] (h : SameSaved s t) (k : SameSaved s u) :
    SameSaved s (if c then t else u) := by
  split
  · exact h
  · exact k

/-! ### Counting -/

theorem sameSaved_addTo (s : State) (n a : Nat) : SameSaved s (s.addTo n a) := by
  rw [State.addTo_eq]; rfl

theorem sameSaved_chainLo (s : State) (n : Nat) : SameSaved s (s.chainLo n) := by
  rw [State.chainLo_eq]; rfl

theorem sameSaved_chainFrom (s : State) (n : Nat) (e : Occ) : SameSaved s (s.chainFrom n e) := by
  obtain ⟨-, h⟩ | h := s.chainFrom_cases n e <;> rw [h]
  exact sameSaved_addTo s _ _

theorem sameSaved_chainFromFrozen (s : State) (before : OpSt) (n : Nat) (e : Occ) :
    SameSaved s (s.chainFromFrozen before n e) := by
  obtain h | h | h | h := s.chainFromFrozen_cases before n e <;> rw [h]
  · exact sameSaved_chainFrom s n e
  · exact sameSaved_chainFrom s.used n e
  · rfl

theorem sameSaved_countBy (s : State) (n a : Nat) (e : Occ) : SameSaved s (s.countBy n a e) := by
  obtain h | h | ⟨-, -, -, h⟩ := s.countBy_cases n a e <;> rw [h]
  · exact sameSaved_addTo s n a
  · exact (sameSaved_addTo s n a).trans (sameSaved_chainFromFrozen _ _ n e)
  · exact sameSaved_chainFrom s n e

theorem sameSaved_count (s : State) (n : Nat) (e : Occ) : SameSaved s (s.count n e) :=
  .ite ((sameSaved_chainLo s n).trans (sameSaved_countBy _ n _ e)) (.refl s)

theorem sameSaved_monitorUpdate (s : State) (n : Nat) (v : DWord) (ovf : Bool) (e : Occ) :
    SameSaved s (s.monitorUpdate n v ovf e) :=
  .ite (.ite rfl rfl) (.refl s)

theorem sameSaved_cycle (s : State) (c : Occ) : SameSaved s (s.cycle c) :=
  .ite (.ite (.ite (sameSaved_addTo { s with presc := s.presc + 1 } 31 1) rfl) (sameSaved_addTo s 31 1)) (.refl s)

theorem sameSaved_redrawPresc (s : State) : SameSaved s s.redrawPresc :=
  .ite rfl (.refl s)

/-! ### Writes of registers -/

theorem sameSaved_commit (s : State) (r : MonReg) (v : DWord) : SameSaved s (s.commit r v) := by
  cases r with
  | cntr n => rw [State.commit_cntr_eq]; rfl
  | typer n => rfl
  | filtr n => rfl

theorem sameSaved_reopenPresc (s : State) (r : MonReg) : SameSaved s (s.reopenPresc r) := by
  rw [reopenPresc_eq]; rfl

theorem sameSaved_writeMonitorReg (s : State) (r : MonReg) (v : DWord) :
    SameSaved s (s.writeMonitorReg r v) := by
  obtain h | ⟨-, -, h⟩ | ⟨-, -, -, h⟩ := s.writeMonitorReg_cases r v <;> rw [h]
  · exact sameSaved_commit (s.dropPend r) r v
  · exact sameSaved_reopenPresc s r

theorem sameSaved_takeEffect (s : State) (r : MonReg) : SameSaved s (s.takeEffect r) := by
  unfold State.takeEffect
  split
  · exact sameSaved_commit { s with pend := _ } r _
  · rfl

theorem sameSaved_resetMonitors (s : State) : SameSaved s s.resetMonitors := by
  rw [State.resetMonitors, State.foldl_clearMonitor_eq]; rfl

theorem sameSaved_resetCycleCounter (s : State) : SameSaved s s.resetCycleCounter := by
  refine SameSaved.trans (t := s.clearMonitor 31) ?_ (sameSaved_redrawPresc _)
  rw [State.clearMonitor_eq]; rfl

theorem sameSaved_writePmcr (s : State) (v : Word) : SameSaved s (s.writePmcr v) := by
  have stored : SameSaved s { s with pmcr := pmcrStored s.cfg s.pmcr v } := rfl
  have monitors := SameSaved.ite (c := v.getLsbD 1) (stored.trans (sameSaved_resetMonitors _)) stored
  exact .ite stored (.ite (monitors.trans (sameSaved_resetCycleCounter _)) monitors)

/-- Each write that an access can make keeps the saved values, if it is no write of PMSSCR. -/
theorem sameSaved_accessRel {i : Instr} (hi : ∀ a, i ≠ .pmsscr a) : AccessRel SameSaved i where
  refl := .refl
  trans := .trans
  answer _ _ := rfl
  used _ := rfl
  split _ _ _ _ := rfl
  counter s _ _ _ := sameSaved_writeMonitorReg s _ _
  typer s _ _ _ := sameSaved_writeMonitorReg s _ _
  filtr s _ _ _ := sameSaved_writeMonitorReg s _ _
  cntenSet _ _ _ := rfl
  cntenClr _ _ _ := rfl
  intenSet _ _ _ := rfl
  intenClr _ _ _ := rfl
  ovsSet _ _ _ := rfl
  ovsClr _ _ _ := rfl
  impdef _ _ _ := .ite rfl (.refl _)
  pmcr := sameSaved_writePmcr
  capture isPmsscr _ := isPmsscr.elim fun a h => absurd h (hi a)
  ssrrLo _ _ := .ite rfl (.refl _)
  ssrrHi _ _ := .ite rfl (.refl _)
  ssrr _ _ := .ite rfl (.refl _)
  irqcr0Lo _ _ := .ite rfl (.refl _)
  irqcr0Hi _ _ := .ite rfl (.refl _)
  irqcr0 _ _ := .ite rfl (.refl _)
  irqcr1 _ _ := .ite rfl (.refl _)
  irqcr2 _ _ := .ite rfl (.refl _)
  irqsr _ _ := .ite rfl (.refl _)

/-! ### The steps of the PMU core -/

theorem sameSaved_msiDone (s : State) (err : Bool) : SameSaved s (s.msiDone err) := by
  by_cases busy : s.msiBusy = true
  · rw [State.msiDone_eq s err busy]; rfl
  · rw [State.msiDone, if_neg busy]

/-- Of the core's steps, only the snapshot request can write a saved value (R215). -/
theorem sameSaved_take {i : Input} (core : i.isCore = true) (noRequest : i ≠ .snapReq) (h : s.take i = .next t) :
    SameSaved s t := by
  cases i with
  | settle => cases h; rfl
  | count n e => cases h; exact sameSaved_count s n e
  | monitorUpdate n v ovf e => cases h; exact sameSaved_monitorUpdate s n v ovf e
  | takeEffect r => cases h; exact sameSaved_takeEffect s r
  | cycle c => cases h; exact sameSaved_cycle s c
  | chainLo n => cases h; exact sameSaved_chainLo s n
  | snapReq => exact absurd rfl noRequest
  | msiStart => cases h; exact .ite rfl (.refl s)
  | msiDone err => cases h; exact sameSaved_msiDone s err
  | msiArrive => cases h; rw [State.msiArrive_eq]; rfl
  | strayEnd k reaches => cases h; rw [State.strayEnd_eq]; rfl
  | access _ | splitHalf _ | reset | setEnv _ => cases core

/-- Settles O31: an access but to PMSSCR makes no capture, and every core step but the request keeps the saved
values. -/
theorem snapshotPersists : Obligations.SnapshotPersists := by
  unfold Obligations.SnapshotPersists
  exact ⟨fun i s t noCapture h => exec_rel (sameSaved_accessRel noCapture) h,
    fun i s t core noRequest h => sameSaved_take core noRequest h⟩

end Sys2Proof.Machine
end

section
/-! What reads of the monitor registers return (R230 to R235, R237, R238), and PMCCNTR and PMCCFILTR as monitor 31
under other names. -/

set_option Elab.async false

namespace Sys2Proof.Machine

variable {s : State} {r : MonReg} {n : Nat} {a : Access}

/-! ### The newest value -/

/-- An entry with no other of its register behind it is the newest of that register (R87). -/
theorem newest_of_last {l rest : List PendEntry} {v : DWord} (last : ∀ p ∈ rest, p.reg ≠ r) :
    newest r (l ++ ⟨r, v⟩ :: rest) = some v := by
  rw [newest_append_eq_or, newest, newest_eq_none last, if_pos rfl, Option.some_or]

/-- Settles O13: the last pending entry is the newest, and without one there is none. -/
theorem monitorReadsReturnNewestValue : Obligations.MonitorReadsReturnNewestValue := by
  unfold Obligations.MonitorReadsReturnNewestValue
  intro s r
  refine ⟨fun l v rest pending last => readMonitorReg_of_newest ?_,
    fun notPending => readMonitorReg_of_none (newest_eq_none notPending)⟩
  rw [pending, newest_of_last last]

/-! ### The reads of each register's halves -/

/-- A part of what a counter reads is that part of its newest value, and zero where it does not exist (R238). -/
theorem readCounter_extractLsb' (s : State) (n start : Nat) : (s.readCounter n).extractLsb' start 32
    = if s.cfg.impl n then (s.readMonitorReg (.cntr n)).extractLsb' start 32 else 0 := by
  unfold State.readCounter
  split
  · rfl
  · exact BitVec.extractLsb'_zero

theorem counter32_rd (layout : s.cfg.wide = false) : (counter32 n).rd s
    = if s.cfg.impl n then (s.readMonitorReg (.cntr n)).extractLsb' 0 32 else 0 := by
  rw [← readCounter_extractLsb', ← BitVec.setWidth_eq_extractLsb' (by decide)]
  exact if_neg (Bool.eq_false_iff.1 layout)

theorem counterLo_rd (layout : s.cfg.wide = true) : (counterLo n).rd s
    = if s.cfg.impl n then (s.readMonitorReg (.cntr n)).extractLsb' 0 32 else 0 := by
  rw [← readCounter_extractLsb']
  exact if_pos layout

theorem counterHi_rd (layout : s.cfg.wide = true) : (counterHi n).rd s
    = if s.cfg.impl n then (s.readMonitorReg (.cntr n)).extractLsb' 32 32 else 0 := by
  rw [← readCounter_extractLsb']
  exact if_pos layout

theorem typerHalf_rd (s : State) (n : Nat) : (typerHalf n).rd s
    = if s.cfg.hasTyper n then (s.readMonitorReg (.typer n)).extractLsb' 0 32 else 0 := by
  rw [← BitVec.setWidth_eq_extractLsb' (by decide)]
  rfl

theorem filtrHalf_rd (s : State) (n : Nat) : (filtrHalf n).rd s
    = if s.cfg.hasFiltr n then (s.readMonitorReg (.filtr n)).extractLsb' 0 32 else 0 := by
  rw [← BitVec.setWidth_eq_extractLsb' (by decide)]
  rfl

/-- A 32-bit read answers the word of its register's location. -/
theorem exec_rd32_answers {i : Instr} {w : Word} (hop : i.access.op = .rd32) (h : (i.half s.cfg).rd s = w) :
    exec i s = .next (s.answer (.data32 w)) := by
  rw [exec_rd32 hop, h]

/-- Settles O14: each form reads its location, which is a part of the newest value. -/
theorem monitorRegisterReads : Obligations.MonitorRegisterReads := by
  unfold Obligations.MonitorRegisterReads
  intro s n p ns
  refine ⟨fun layout => ?_, fun layout => ?_, fun layout => ?_, ?_, ?_⟩
  · exact exec_rd32_answers rfl (counter32_rd layout)
  · exact exec_rd32_answers rfl (counterLo_rd layout)
  · exact exec_rd32_answers rfl (counterHi_rd layout)
  · exact exec_rd32_answers rfl (typerHalf_rd s n)
  · exact exec_rd32_answers rfl (filtrHalf_rd s n)

/-! ### Locations that are live under a condition -/

section
variable {live : Cfg → Bool}

theorem onlyIf_rd (h : live s.cfg = true) (loc : Half) : (loc.onlyIf live).rd s = loc.rd s := if_pos h

theorem onlyIf_wr (h : live s.cfg = true) (loc : Half) (v : Word) : (loc.onlyIf live).wr v s = loc.wr v s :=
  if_pos h

theorem onlyIf_rd_absent (h : live s.cfg = false) (loc : Half) : (loc.onlyIf live).rd s = 0 :=
  if_neg (Bool.eq_false_iff.1 h)

theorem onlyIf_wr_absent (h : live s.cfg = false) (loc : Half) (v : Word) : (loc.onlyIf live).wr v s = s :=
  if_neg (Bool.eq_false_iff.1 h)

/-- Where a location is live, every access to it is one to the location itself (R116). -/
theorem access32_onlyIf (h : live s.cfg = true) (loc : Half) (a : Access) :
    access32 (loc.onlyIf live) a s = access32 loc a s := by
  unfold access32
  split
  · rw [Half.read, onlyIf_rd h, Half.read]
  · rw [Half.write, onlyIf_wr h, Half.write]
  · rfl
  · rfl

end

/-- An access made in one step depends on what its locations read and write in this state, and not on the names
that a second half would go by (R72, R73, R78). -/
theorem access64_congr {pair : Bool} {lo hi lo' hi' : Half} {both both' : DWord → State → State}
    {loI hiI loI' hiI' : Access → Instr} (oneStep : a.op.is64 = false ∨ s.cfg.atomic64 = true)
    (loRd : lo.rd s = lo'.rd s) (hiRd : hi.rd s = hi'.rd s) (loWr : ∀ v, lo.wr v s = lo'.wr v s)
    (bothWr : ∀ v, both v s = both' v s) :
    access64 pair lo hi both loI hiI a s = access64 pair lo' hi' both' loI' hiI' a s := by
  unfold access64
  cases hop : a.op with
  | rd32 => simp only [Half.read, loRd]
  | wr32 v => simp only [Half.write, loWr]
  | rd64 =>
    have atomic : s.cfg.atomic64 = true := oneStep.resolve_left (by rw [hop]; exact Bool.noConfusion)
    simp only [read64, if_pos atomic, loRd, hiRd]
  | wr64 v =>
    have atomic : s.cfg.atomic64 = true := oneStep.resolve_left (by rw [hop]; exact Bool.noConfusion)
    simp only [write64, if_pos atomic, bothWr]

/-! ### The cycle counter's own names -/

/-- A register that is PMCCNTR or PMCCFILTR is a location live with the cycle counter only (R232, R235). -/
theorem cycleName_half {i : Instr} (name : i ∈ [Instr.pmccntr a, .pmccntrLo a, .pmccntrHi a, .pmccfiltr a]) (c : Cfg) :
    i.access = a ∧ ∃ loc : Half, i.half c = loc.onlyIf Cfg.cc := by
  simp only [List.mem_cons, List.not_mem_nil, or_false] at name
  obtain rfl | rfl | rfl | rfl := name
  · exact ⟨rfl, counter32 31, rfl⟩
  · exact ⟨rfl, counterLo 31, rfl⟩
  · exact ⟨rfl, counterHi 31, rfl⟩
  · exact ⟨rfl, typerHalf 31, rfl⟩

theorem exec_pmccntrLo (cc : s.cfg.cc = true) (oneStep : a.op.is64 = false ∨ s.cfg.atomic64 = true) :
    exec (.pmccntrLo a) s = exec (.pmevcntrLo 31 a) s :=
  access64_congr oneStep (onlyIf_rd cc _) (onlyIf_rd cc _) (onlyIf_wr cc _) (fun _ => if_pos cc)

/-- Settles O19: the two names are locations of monitor 31 that are live with the cycle counter only. -/
theorem cycleCounterIsMonitor31 : Obligations.CycleCounterIsMonitor31 := by
  unfold Obligations.CycleCounterIsMonitor31
  refine fun s a => ⟨fun cc => ⟨access32_onlyIf cc _ a, access32_onlyIf cc _ a, access32_onlyIf cc _ a,
    exec_pmccntrLo cc⟩, fun absent i name => ?_⟩
  obtain ⟨access, loc, half⟩ := cycleName_half name s.cfg
  refine ⟨fun hop => exec_rd32_answers (access ▸ hop) ?_, fun v hop => exec_wr32_ignored (access ▸ hop) ?_⟩
  · rw [half, onlyIf_rd_absent absent]
  · rw [half, onlyIf_wr_absent absent]

end Sys2Proof.Machine
end

section
/-! Writes of monitor registers that are stored in their own step: in a STOP state that has settled, or under
`Cfg.NA` (R236, R239 to R242). -/

set_option Elab.async false

namespace Sys2Proof.Machine

variable {s : State} {r : MonReg} {n : Nat}

theorem writeMonitorReg_of_stopped (stopped : s.stopped) (writable : r.writable s.cfg = true) (v : DWord) :
    s.writeMonitorReg r v = (s.dropPend r).commit r v := by
  have now : s.storesNow = true := State.storesNow_eq_true.2 stopped
  simp [State.writeMonitorReg, writable, stopped.1, now]

/-- A register whose pending writes have ended reads the value it has just been given (R87). -/
theorem readMonitorReg_dropPend_commit (s : State) (r : MonReg) (v : DWord) (answer : Resp) :
    (((s.dropPend r).commit r v).answer answer).readMonitorReg r = ((s.dropPend r).commit r v).stored r := by
  rw [readMonitorReg_of_none]
  · cases r <;> rfl
  · rw [State.answer_pend, commit_pend, State.dropPend_pend, newest_filter]

/-- A 32-bit write whose location makes an accepted write of a monitor register, in STOP. -/
theorem exec_wr32_stored {i : Instr} {v : Word} {w : DWord} (stopped : s.stopped)
    (writable : r.writable s.cfg = true) (hop : i.access.op = .wr32 v)
    (h : (i.half s.cfg).wr v s = s.writeMonitorReg r w) :
    exec i s = .next (((s.dropPend r).commit r w).answer .done) := by
  rw [exec_wr32 hop, Half.write, h, writeMonitorReg_of_stopped stopped writable]

/-! ### Counters -/

/-- A counter committed without its pending writes has the value, after its held-back update (R204, R236). -/
theorem counterStored_commit (s : State) (n v : Nat) :
    CounterStored s (((s.dropPend (.cntr n)).commit (.cntr n) (s.cfg.wrap n v)).answer .done) n v := by
  refine ⟨?_, ?_, fun k hk => ?_, fun k => ?_, ?_, fun k hk => ?_, fun notCycle => ?_, ?_⟩
  · rw [State.answer_xAt, commit_cntr_xAt, if_pos rfl]
  · rw [readMonitorReg_dropPend_commit, State.stored, commit_cntr_xAt, if_pos rfl]
  · rw [State.answer_xAt, commit_cntr_xAt, if_neg (Ne.symm hk), State.dropPend_xAt]
  · exact commit_cntr_ovsBit (s.dropPend (.cntr n)) n k _
  · rw [State.answer_lowAt, commit_cntr_lowAt, if_pos rfl]
  · rw [State.answer_lowAt, commit_cntr_lowAt, if_neg (Ne.symm hk), State.dropPend_lowAt]
  · exact commit_cntr_presc (s := s.dropPend (.cntr n)) _ (by rw [State.dropPend_cfg, notCycle, Bool.false_and])
  · rw [State.commit_cntr_eq]
    rfl

/-- Settles O15: in every form the access is one write of the counter, which is committed. -/
theorem stoppedCounterWriteStores : Obligations.StoppedCounterWriteStores := by
  unfold Obligations.StoppedCounterWriteStores
  intro s n p ns v d implemented cntrWritable stopped
  have writable : (MonReg.cntr n).writable s.cfg = true := cntrWritable
  have stored := counterStored_commit s n
  refine ⟨fun layout => ?_, fun layout => ⟨?_, ?_, fun atomic => ?_⟩⟩
  · exact ⟨_, exec_wr32_stored stopped writable rfl (counter32_wr layout implemented v), stored _⟩
  · exact ⟨_, exec_wr32_stored stopped writable rfl (counterLo_wr layout implemented v), stored _⟩
  · exact ⟨_, exec_wr32_stored stopped writable rfl (counterHi_wr layout implemented v), stored _⟩
  · refine ⟨_, exec_wr64_atomic rfl atomic rfl, ?_⟩
    rw [Instr.writeBoth, counterBoth_wr layout implemented, writeMonitorReg_of_stopped stopped writable]
    exact stored _

/-! ### Configuration registers -/

theorem typerValue_of_mon {c : Cfg} {m : MonCfg} (mon : c.mon n = some m) (v : Word) :
    c.typerValue n v = (v &&& m.typerMask) ||| (m.typerFixed &&& ~~~m.typerMask) := by
  rw [Cfg.typerValue, mon]
  rfl

theorem filtrValue_of_mon {c : Cfg} {m : MonCfg} (mon : c.mon n = some m) (v : Word) :
    c.filtrValue n v = (v &&& m.filtrMask) ||| (m.filtrFixed &&& ~~~m.filtrMask) := by
  rw [Cfg.filtrValue, mon]
  rfl

theorem commit_typer (s : State) (n : Nat) (w : Word) : s.commit (.typer n) (w.setWidth 64) = s.putTyper n w := by
  rw [State.commit, BitVec.setWidth_setWidth_of_le w (by decide), BitVec.setWidth_eq]

theorem commit_filtr (s : State) (n : Nat) (w : Word) : s.commit (.filtr n) (w.setWidth 64) = s.putFiltr n w := by
  rw [State.commit, BitVec.setWidth_setWidth_of_le w (by decide), BitVec.setWidth_eq]

/-- Settles O16: the access is one write of the register, whose value is committed. -/
theorem stoppedConfigWriteStores : Obligations.StoppedConfigWriteStores := by
  unfold Obligations.StoppedConfigWriteStores
  intro s n m p ns v mon stopped
  constructor
  · intro present writable
    have typerWritable : s.cfg.typerWritable n = true :=
      Cfg.monIs_eq_true.2 ⟨m, mon, Bool.and_eq_true_iff.2 ⟨present, writable⟩⟩
    refine ⟨_, exec_wr32_stored (r := .typer n) stopped typerWritable rfl
      (typerHalf_wr (hasTyper_of_typerWritable typerWritable) v), ?_, fun k hk => ?_, ?_, ?_⟩
    · rw [State.answer_typerAt, commit_typer, State.putTyper_typerAt, if_pos rfl, typerValue_of_mon mon]
    · rw [State.answer_typerAt, commit_typer, State.putTyper_typerAt, if_neg (Ne.symm hk), State.dropPend_typerAt]
    · exact readMonitorReg_dropPend_commit s (.typer n) _ .done
    · rfl
  · intro present writable
    have filtrWritable : s.cfg.filtrWritable n = true :=
      Cfg.monIs_eq_true.2 ⟨m, mon, Bool.and_eq_true_iff.2 ⟨present, writable⟩⟩
    refine ⟨_, exec_wr32_stored (r := .filtr n) stopped filtrWritable rfl
      (filtrHalf_wr (hasFiltr_of_filtrWritable filtrWritable) v), ?_, fun k hk => ?_, ?_, ?_⟩
    · rw [State.answer_filtrAt, commit_filtr, State.putFiltr_filtrAt, if_pos rfl, filtrValue_of_mon mon]
    · rw [State.answer_filtrAt, commit_filtr, State.putFiltr_filtrAt, if_neg (Ne.symm hk), State.dropPend_filtrAt]
    · exact readMonitorReg_dropPend_commit s (.filtr n) _ .done
    · rfl

end Sys2Proof.Machine
end

section
/-! The set and clear registers of PMCNTEN, PMINTEN and PMOVS (R260 to R271): what a word at the place of register
m is in the whole vector, and from it what a set, a clear and a read do bit by bit. -/

set_option Elab.async false

namespace Sys2Proof.Machine

variable {present : Nat → Bool} {w : Word} {m : Nat}

/-- Bit n of the vector is bit `n % 32` of register `n / 32` (R260). -/
theorem getLsbD_atWindow_div_mod {n : Nat} (inVec : n < 256) (w : Word) (m : Nat) :
    (atWindow w m).getLsbD n = (decide (n / 32 = m) && w.getLsbD (n % 32)) := by
  rw [getLsbD_atWindow, decide_eq_true inVec, Bool.true_and]
  by_cases place : n / 32 = m
  · have above : 32 * m ≤ n := by omega
    have offset : n - 32 * m = n % 32 := by omega
    rw [decide_eq_true above, decide_eq_true place, offset]
  · rw [decide_eq_false place, Bool.false_and]
    by_cases above : 32 * m ≤ n
    · have outside : 32 ≤ n - 32 * m := by omega
      rw [BitVec.getLsbD_of_ge w _ outside, Bool.and_false]
    · rw [decide_eq_false above, Bool.false_and]

/-! ### The bits that are present -/

/-- `w` is the part for register m of the bits that are present: `pmask(fn, m)` (R261). -/
def IsPmask (w : Word) (m : Nat) (present : Nat → Bool) : Prop :=
  ∀ q, q < 32 → w.getLsbD q = present (32 * m + q)

theorem isPmask_maskOf (m : Nat) (present : Nat → Bool) :
    IsPmask (maskOf 32 fun q => present (q + 32 * m)) m present := by
  intro q inWord
  rw [getLsbD_maskOf, decide_eq_true inWord, Bool.true_and, Nat.add_comm]

theorem isPmask_enableMask (c : Cfg) (m : Nat) : IsPmask (c.enableMask m) m c.impl :=
  isPmask_maskOf m c.hasEnable

theorem isPmask_flagMask (c : Cfg) (m : Nat) : IsPmask (c.flagMask m) m (fun n => c.impl n && c.hasOvf n) :=
  isPmask_maskOf m c.hasFlag

/-! ### What the three operations do to a vector -/

theorem setsBits_or_atWindow (old : Vec) (v : Word) (pmask : IsPmask w m present) :
    SetsBits old (old ||| atWindow (v &&& w) m) m v present := by
  intro n inVec
  rw [BitVec.getLsbD_or, getLsbD_atWindow_div_mod inVec, BitVec.getLsbD_and]
  by_cases place : n / 32 = m
  · have bit : 32 * m + n % 32 = n := by omega
    rw [pmask _ (Nat.mod_lt n (by decide)), bit, Bool.and_assoc]
  · simp only [decide_eq_false place, Bool.false_and]

theorem clearsBits_and_not_atWindow (old : Vec) (m : Nat) (v : Word) :
    ClearsBits old (old &&& ~~~atWindow v m) m v := by
  intro n inVec
  rw [BitVec.getLsbD_and, BitVec.getLsbD_not, getLsbD_atWindow_div_mod inVec, decide_eq_true inVec, Bool.true_and]

theorem showsBits_window (vec : Vec) (pmask : IsPmask w m present) :
    ShowsBits (window vec m &&& w) vec m present := by
  intro q inWord
  rw [BitVec.getLsbD_and, getLsbD_window, decide_eq_true inWord, Bool.true_and, pmask q inWord]

/-- Settles O22: a write of a register stores its vector with the bits set or cleared and answers, and a read of
either register of a pair is the same window under the same mask. -/
theorem setAndClearRegistersActOnTheirBits : Obligations.SetAndClearRegistersActOnTheirBits := by
  unfold Obligations.SetAndClearRegistersActOnTheirBits
  intro s m p ns v _
  have enables := isPmask_enableMask s.cfg m
  have flags := isPmask_flagMask s.cfg m
  refine ⟨?cntenset, ?cntenclr, ?intenset, ?intenclr, ?ovsset, ?ovsclr, ?cnten, ?inten, ?ovs⟩
  case cntenset => exact ⟨_, exec_wr32 rfl, setsBits_or_atWindow s.cnten v enables, rfl⟩
  case cntenclr => exact ⟨_, exec_wr32 rfl, clearsBits_and_not_atWindow s.cnten m v, rfl⟩
  case intenset => exact ⟨_, exec_wr32 rfl, setsBits_or_atWindow s.inten v flags, rfl⟩
  case intenclr => exact ⟨_, exec_wr32 rfl, clearsBits_and_not_atWindow s.inten m v, rfl⟩
  case ovsset => exact ⟨_, exec_wr32 rfl, setsBits_or_atWindow s.ovs v flags, rfl⟩
  case ovsclr => exact ⟨_, exec_wr32 rfl, clearsBits_and_not_atWindow s.ovs m v, rfl⟩
  case cnten => exact ⟨_, showsBits_window s.cnten enables, exec_rd32_answers rfl rfl, exec_rd32_answers rfl rfl⟩
  case inten => exact ⟨_, showsBits_window s.inten flags, exec_rd32_answers rfl rfl, exec_rd32_answers rfl rfl⟩
  case ovs => exact ⟨_, showsBits_window s.ovs flags, exec_rd32_answers rfl rfl, exec_rd32_answers rfl rfl⟩

end Sys2Proof.Machine
end

section
/-! Writes of PMCR (R281, R296, R297): the stored bits, and the monitors that P and C zero. -/

set_option Elab.async false

namespace Sys2Proof.Machine

variable {s t u : State} {z w : Nat → Bool}

/-! ### Zeroing monitors -/

/-- A pending write that stays when the monitors `z` are zeroed: those of their values are dropped. -/
def PendEntry.kept (z : Nat → Bool) (q : PendEntry) : Bool :=
  match q.reg with
  | .cntr n => !z n
  | .typer _ => true
  | .filtr _ => true

/-- The state with everything blanked that the reset of a monitor writes, and the prescaler phase. -/
def State.apartFromMonitors (s : State) : State :=
  { s with x := [], lowPend := [], ovs := 0, pend := [], presc := 0, draws := 0 }

/-- `t` is `s` with the monitors `z` zeroed: their pending writes are dropped, and what was held back for them has set
its flag. The prescaler phase is left open. -/
structure ZeroesMonitors (z : Nat → Bool) (s t : State) : Prop where
  x : ∀ n, t.xAt n = if z n then 0 else s.xAt n
  low : ∀ n, t.lowAt n = if z n then 0 else s.lowAt n
  flags : ∀ n, t.ovsBit n = (s.ovsBit n || (decide (n < 256) && z n && decide (s.lowAt n ≠ 0)))
  pend : t.pend = s.pend.filter (PendEntry.kept z)
  rest : t.apartFromMonitors = s.apartFromMonitors

theorem ZeroesMonitors.none (s : State) : ZeroesMonitors (fun _ => false) s s where
  x _ := rfl
  low _ := rfl
  flags n := by simp
  pend := (List.filter_eq_self.2 fun q _ => by unfold PendEntry.kept; split <;> rfl).symm
  rest := rfl

theorem ZeroesMonitors.trans (h : ZeroesMonitors z s t) (k : ZeroesMonitors w t u) :
    ZeroesMonitors (fun n => z n || w n) s u where
  x n := by
    rw [k.x, h.x]
    cases z n <;> cases w n <;> rfl
  low n := by
    rw [k.low, h.low]
    cases z n <;> cases w n <;> rfl
  flags n := by
    rw [k.flags, h.flags, h.low]
    cases z n <;> simp
  pend := by
    rw [k.pend, h.pend, List.filter_filter]
    refine List.filter_congr fun q _ => ?_
    unfold PendEntry.kept
    split
    · rw [Bool.not_or, Bool.and_comm]
    · rfl
    · rfl
  rest := k.rest.trans h.rest

/-- Monitors that are zeroed under a condition are none without it. -/
theorem ZeroesMonitors.when (h : ZeroesMonitors z s t) (b : Bool) :
    ZeroesMonitors (fun n => b && z n) s (if b then t else s) := by
  cases b with
  | false => exact .none s
  | true => simpa using h

/-- One monitor's reset: the held-back update with its flag, the pending writes, the value (R296). -/
theorem zeroes_clearMonitor (s : State) (n : Nat) : ZeroesMonitors (fun k => decide (k = n)) s (s.clearMonitor n) where
  x k := by
    have zeroed : (s.clearMonitor n).xAt k = if n = k then 0 else (s.chainLo n).xAt k :=
      State.putX_xAt ((s.chainLo n).dropPend (.cntr n)) n 0 k
    rw [zeroed]
    by_cases same : k = n
    · simp [same]
    · simp [same, Ne.symm same, chainLo_xAt_ne same]
  low k := by
    have released : (s.clearMonitor n).lowAt k = (s.chainLo n).lowAt k := rfl
    rw [released, chainLo_lowAt]
    simp only [decide_eq_true_eq, eq_comm (a := n)]
  flags k := by
    have flagged : (s.clearMonitor n).ovsBit k = (s.chainLo n).ovsBit k := rfl
    rw [flagged, chainLo_ovsBit]
    by_cases same : k = n
    · rw [same, Bool.decide_and, Bool.and_comm (decide (n = n))]
    · simp [same]
  pend := by
    rw [State.clearMonitor_eq]
    refine List.filter_congr fun q _ => ?_
    unfold PendEntry.kept
    split
    all_goals
      rename_i reg
      simp [reg]
  rest := by
    rw [State.clearMonitor_eq]
    rfl

/-- The monitors of a list, one after the other. -/
theorem zeroes_foldl_clearMonitor (l : List Nat) (s : State) :
    ZeroesMonitors (fun k => l.contains k) s (l.foldl State.clearMonitor s) := by
  induction l generalizing s with
  | nil => exact .none s
  | cons n l ih =>
    simp only [List.contains_cons, List.foldl_cons]
    exact (zeroes_clearMonitor s n).trans (ih (s.clearMonitor n))

/-- P resets every implemented monitor but the cycle counter (R296). -/
theorem zeroes_resetMonitors (s : State) :
    ZeroesMonitors (fun n => s.cfg.impl n && !s.cfg.isCycle n) s s.resetMonitors := by
  have listed : (fun n => (s.cfg.indices.filter (fun m => !s.cfg.isCycle m)).contains n)
      = fun n => s.cfg.impl n && !s.cfg.isCycle n := by
    funext n
    have member : n ∈ s.cfg.indices ↔ s.cfg.impl n = true := ⟨Cfg.impl_of_mem_indices, Cfg.impl_mem_indices⟩
    rw [Bool.eq_iff_iff, List.contains_iff_mem, List.mem_filter, member, Bool.and_eq_true]
  exact listed ▸ zeroes_foldl_clearMonitor _ s

theorem zeroes_redrawPresc (s : State) : ZeroesMonitors (fun _ => false) s s.redrawPresc := by
  obtain ⟨x, low, flags, pend, -⟩ := ZeroesMonitors.none s
  rw [State.redrawPresc_eq]
  exact ⟨x, low, flags, pend, rfl⟩

/-- C resets the cycle counter and leaves the prescaler phase open (R297). -/
theorem zeroes_resetCycleCounter (s : State) : ZeroesMonitors (fun n => decide (n = 31)) s s.resetCycleCounter := by
  have cleared := (zeroes_clearMonitor s 31).trans (zeroes_redrawPresc (s.clearMonitor 31))
  simp only [Bool.or_false] at cleared
  exact cleared

/-! ### The write of PMCR -/

/-- The state with the bits of PMCR that a write of `v` stores (R281). -/
def State.storePmcr (s : State) (v : Word) : State := { s with pmcr := pmcrStored s.cfg s.pmcr v }

/-- The monitors a write of `v` to PMCR zeroes: by P, by C, and none where the resets are blocked (R296, R297, D22). -/
def State.pmcrZeroes (s : State) (v : Word) (n : Nat) : Bool :=
  !(s.storePmcr v).resetBlocked
    && (v.getLsbD 1 && s.cfg.impl n && !s.cfg.isCycle n || v.getLsbD 2 && s.cfg.isCycle n)

theorem writePmcr_of_blocked {v : Word} (blocked : (s.storePmcr v).resetBlocked = true) :
    s.writePmcr v = s.storePmcr v :=
  if_pos blocked

/-- Where the resets are not blocked, P goes first and C second (R281). -/
theorem writePmcr_of_not_blocked {v : Word} (free : (s.storePmcr v).resetBlocked = false) : s.writePmcr v
    = let t := if v.getLsbD 1 then (s.storePmcr v).resetMonitors else s.storePmcr v
      if v.getLsbD 2 && s.cfg.cc then t.resetCycleCounter else t :=
  if_neg (Bool.eq_false_iff.1 free)

theorem zeroes_writePmcr (s : State) (v : Word) :
    ZeroesMonitors (s.pmcrZeroes v) (s.storePmcr v) (s.writePmcr v) := by
  cases blocked : (s.storePmcr v).resetBlocked with
  | true =>
    have nothing : s.pmcrZeroes v = fun _ => false := by simp [funext_iff, State.pmcrZeroes, blocked]
    rw [nothing, writePmcr_of_blocked blocked]
    exact .none _
  | false =>
    have byPOrC : s.pmcrZeroes v = fun n => v.getLsbD 1 && (s.cfg.impl n && !s.cfg.isCycle n)
        || (v.getLsbD 2 && s.cfg.cc) && decide (n = 31) := by
      funext n
      simp only [State.pmcrZeroes, blocked, Cfg.isCycle, Bool.not_false, Bool.true_and, Bool.and_assoc]
      rfl
    rw [byPOrC, writePmcr_of_not_blocked blocked]
    exact ((zeroes_resetMonitors (s.storePmcr v)).when _).trans ((zeroes_resetCycleCounter _).when _)

/-- Without C the prescaler phase stays, and no free value is used (R193, R296). -/
theorem writePmcr_presc {v : Word} (noC : v.getLsbD 2 = false) :
    (s.writePmcr v).presc = s.presc ∧ (s.writePmcr v).draws = s.draws := by
  cases blocked : (s.storePmcr v).resetBlocked with
  | true =>
    rw [writePmcr_of_blocked blocked]
    exact ⟨rfl, rfl⟩
  | false =>
    simp only [writePmcr_of_not_blocked blocked, noC, Bool.false_and, Bool.false_eq_true, if_false]
    split
    · rw [State.resetMonitors, State.foldl_clearMonitor_eq]
      exact ⟨rfl, rfl⟩
    · exact ⟨rfl, rfl⟩

/-- Settles O24: the bits are stored, and the write zeroes the monitors that P and C ask for. -/
theorem pmcrWriteStoresAndResets : Obligations.PmcrWriteStoresAndResets := by
  unfold Obligations.PmcrWriteStoresAndResets
  intro s p ns v bits blocked zeroed
  have reset := zeroes_writePmcr s v
  have stored : (s.writePmcr v).pmcr = bits := congrArg State.pmcr reset.rest
  refine ⟨_, exec_wr32 rfl, stored, reset.x, reset.low, reset.flags, reset.pend, writePmcr_presc, ?_⟩
  exact congrArg (fun t : State => { t with
    x := (s.writePmcr v).x, lowPend := (s.writePmcr v).lowPend, ovs := (s.writePmcr v).ovs
    pend := (s.writePmcr v).pend, presc := (s.writePmcr v).presc, draws := (s.writePmcr v).draws
    resp := .done }) reset.rest

end Sys2Proof.Machine
end

section
/-! The reads of PMCR, PMCFGR, PMCGCR<k> and PMCEID<k> field by field, and the IMPDEF registers (R282 to R284, R299,
R305, R308, R310). -/

set_option Elab.async false

namespace Sys2Proof

variable {c : Cfg}

/-! ### Words made of single bits and fields -/

theorem getLsbD_bitIf (b : Bool) {i : Nat} (inWord : i < 32) (j : Nat) :
    (bitIf b i).getLsbD j = (b && j == i) := by
  cases b with
  | false => simp [bitIf]
  | true =>
    rw [bitIf, if_pos rfl, BitVec.getLsbD_shiftLeft]
    obtain below | rfl | above := Nat.lt_trichotomy j i
    · simp [below, Nat.ne_of_lt below]
    · simp [inWord]
    · simp [Nat.sub_ne_zero_of_lt above, Nat.ne_of_gt above]

@[simp] theorem getElem_bitIf (b : Bool) {i : Nat} (inWord : i < 32) (j : Nat) (h : j < 32) :
    (bitIf b i)[j] = (b && j == i) :=
  getLsbD_bitIf b inWord j

/-- A field of a word, placed at bit i, has no part in the bits outside it. -/
theorem extractLsb'_field_of_outside {k i start len : Nat} (v : BitVec k)
    (outside : i + k ≤ start ∨ start + len ≤ i) :
    ((v.setWidth 32) <<< i).extractLsb' start len = 0 := by
  refine BitVec.eq_of_getLsbD_eq fun j inPart => ?_
  by_cases above : start + j < i
  · simp [above]
  · have beyond : k ≤ start + j - i := by omega
    simp [BitVec.getLsbD_of_ge v _ beyond]

/-- A field of a word is what stands at its place. -/
theorem extractLsb'_field {k i : Nat} (v : BitVec k) (inWord : i + k ≤ 32) :
    ((v.setWidth 32) <<< i).extractLsb' i k = v := by
  refine BitVec.eq_of_getLsbD_eq fun j inField => ?_
  have bit : i + j < 32 := by omega
  simp [inField, bit]

theorem bitIf_eq_field (b : Bool) (i : Nat) : bitIf b i = ((BitVec.ofBool b).setWidth 32) <<< i := by
  cases b <;> simp [bitIf]

/-! ### PMCFGR -/

theorem ofNat_shiftLeft_28 (n : Nat) :
    (BitVec.ofNat 32 n) <<< 28 = ((BitVec.ofNat 4 n).setWidth 32) <<< 28 := by
  refine BitVec.eq_of_toNat_eq ?_
  simp only [BitVec.toNat_shiftLeft, BitVec.toNat_setWidth, BitVec.toNat_ofNat, Nat.shiftLeft_eq]
  omega

/-- PMCFGR has each field in its place and reserved bits that are zero (R284). -/
theorem pmcfgr_fields (c : Cfg) :
    c.pmcfgr.extractLsb' 28 4 = BitVec.ofNat 4 (c.ngrp - 1) ∧ c.pmcfgr.extractLsb' 25 3 = 0
    ∧ c.pmcfgr.extractLsb' 8 6 = BitVec.ofNat 6 (c.size - 1)
    ∧ c.pmcfgr.extractLsb' 0 8 = BitVec.ofNat 8 (c.nmon - 1) := by
  have unshifted (v : BitVec 8) : v.setWidth 32 = (v.setWidth 32) <<< 0 := (BitVec.shiftLeft_zero _).symm
  rw [Cfg.pmcfgr, ofNat_shiftLeft_28, unshifted]
  refine ⟨?_, ?_, ?_, ?_⟩
  all_goals simp [BitVec.extractLsb'_or, bitIf_eq_field, extractLsb'_field, extractLsb'_field_of_outside,
    -BitVec.shiftLeft_zero]

theorem pmcfgr_bits (c : Cfg) :
    c.pmcfgr.getLsbD 24 = c.hdbg ∧ c.pmcfgr.getLsbD 23 = c.tro ∧ c.pmcfgr.getLsbD 22 = c.ss
    ∧ c.pmcfgr.getLsbD 21 = c.fzo ∧ c.pmcfgr.getLsbD 20 = c.msi ∧ c.pmcfgr.getLsbD 19 = false
    ∧ c.pmcfgr.getLsbD 18 = false ∧ c.pmcfgr.getLsbD 17 = c.na ∧ c.pmcfgr.getLsbD 16 = c.ex
    ∧ c.pmcfgr.getLsbD 15 = (c.cc && c.ccd) ∧ c.pmcfgr.getLsbD 14 = c.cc := by
  simp [Cfg.pmcfgr]

/-- Page 1 shows the bits of PMCFGR that are not control features (R283). -/
theorem getLsbD_pmcfgrView (c : Cfg) (second : Bool) (i : Nat) :
    (c.pmcfgrView second).getLsbD i = (c.pmcfgr.getLsbD i && (!second || (0xF0407FFF : Word).getLsbD i)) := by
  cases second with
  | false => simp [Cfg.pmcfgrView]
  | true => exact BitVec.getLsbD_and

/-- A field that both pages show reads the same through each (R283). -/
theorem extractLsb'_pmcfgrView (c : Cfg) (second : Bool) {start len : Nat}
    (shown : (0xF0407FFF : Word).extractLsb' start len = BitVec.allOnes len) :
    (c.pmcfgrView second).extractLsb' start len = c.pmcfgr.extractLsb' start len := by
  cases second with
  | false => rfl
  | true => rw [Cfg.pmcfgrView, if_pos rfl, BitVec.extractLsb'_and, shown, BitVec.and_allOnes]

/-- A reserved field of PMCFGR is zero through each page (R283). -/
theorem extractLsb'_pmcfgrView_of_zero (second : Bool) {start len : Nat}
    (reserved : c.pmcfgr.extractLsb' start len = 0) : (c.pmcfgrView second).extractLsb' start len = 0 := by
  cases second with
  | false => exact reserved
  | true => rw [Cfg.pmcfgrView, if_pos rfl, BitVec.extractLsb'_and, reserved]; exact BitVec.zero_and

/-- How many monitors and groups there are (R22, R196, R293). -/
theorem Cfg.nmon_ngrp_le (h : c.wf = true) : c.nmon ≤ 256 ∧ c.ngrp ≤ 16 := by
  have monitors := (Cfg.wf_parts h).1
  simp only [Cfg.wfMonitors, Bool.and_eq_true, decide_eq_true_eq] at monitors
  obtain ⟨⟨⟨⟨⟨⟨⟨⟨-, -, count⟩, -, groups⟩, -⟩, -⟩, -⟩, -⟩, -⟩, -⟩ := monitors
  refine ⟨Nat.le_trans count ?_, groups⟩
  split <;> omega

/-- Where there are groups, none has more monitors than a group can have (R197). -/
theorem Cfg.grpN_le (h : c.wf = true) (grouped : 1 < c.ngrp) (g : Nat) : c.grpN g ≤ 32 := by
  have monitors := (Cfg.wf_parts h).1
  simp only [Cfg.wfMonitors, Bool.and_eq_true, Bool.or_eq_true, List.all_eq_true, decide_eq_true_eq] at monitors
  obtain ⟨⟨⟨⟨⟨-, bounded⟩, -⟩, -⟩, -⟩, -⟩ := monitors
  have most : c.grpMax ≤ 32 := by
    unfold Cfg.grpMax
    repeat' split
    all_goals omega
  have fits := bounded.resolve_left (by omega)
  unfold Cfg.grpN
  by_cases implemented : g < c.groups.length
  · rw [List.getD_eq_getElem _ _ implemented]
    exact Nat.le_trans (fits _ (List.getElem_mem implemented)) most
  · rw [List.getD_eq_default _ _ (by omega)]
    omega

/-! ### PMCGCR<k> -/

/-- Byte m of PMCGCR<k> is the number of monitors of group 4k + m (R305). -/
theorem pmcgcr_byte (grouped : 1 < c.ngrp) (k : Nat) {m : Nat} (inWord : m < 4) :
    (c.pmcgcr k).extractLsb' (8 * m) 8 = BitVec.ofNat 8 (c.grpN (4 * k + m)) := by
  have above {w : Nat} (x : BitVec w) (lowest : Byte) (start : Nat) :
      (x ++ lowest).extractLsb' (start + 8) 8 = x.extractLsb' start 8 :=
    BitVec.extractLsb'_append_eq_of_le (Nat.le_add_left 8 start)
  rw [Cfg.pmcgcr, if_pos grouped]
  obtain rfl | rfl | rfl | rfl : m = 0 ∨ m = 1 ∨ m = 2 ∨ m = 3 := by omega
  · exact BitVec.extractLsb'_append_eq_right
  · exact (above _ _ 0).trans BitVec.extractLsb'_append_eq_right
  · exact (above _ _ 8).trans ((above _ _ 0).trans BitVec.extractLsb'_append_eq_right)
  · exact (above _ _ 16).trans ((above _ _ 8).trans BitVec.extractLsb'_append_eq_left)

end Sys2Proof

namespace Sys2Proof.Machine

variable {s : State}

/-- Settles O26: the fields of PMCFGR, and what of it each page shows. -/
theorem pmcfgrReadShowsConfiguration : Obligations.PmcfgrReadShowsConfiguration := by
  unfold Obligations.PmcfgrReadShowsConfiguration
  intro s p ns wf
  obtain ⟨monitors, groups⟩ := Cfg.nmon_ngrp_le wf
  have size := Cfg.size_le wf
  obtain ⟨ncg, reserved, sizeField, n⟩ := pmcfgr_fields s.cfg
  obtain ⟨hdbg, tro, ss, fzo, msi, bit19, bit18, na, ex, ccd, cc⟩ := pmcfgr_bits s.cfg
  have fits : s.cfg.ngrp - 1 < 16 ∧ s.cfg.size - 1 < 64 ∧ s.cfg.nmon - 1 < 256 := by omega
  have page : (p == .p0) = !(p == .p1) := by cases p <;> rfl
  refine ⟨s.cfg.pmcfgrView (p == .p1), exec_rd32_answers rfl rfl, ?_⟩
  simp only [getLsbD_pmcfgrView, hdbg, tro, ss, fzo, msi, bit19, bit18, na, ex, ccd, cc, page]
  rw [extractLsb'_pmcfgrView_of_zero _ reserved, extractLsb'_pmcfgrView _ _ (by decide),
    extractLsb'_pmcfgrView _ _ (by decide), extractLsb'_pmcfgrView _ _ (by decide), ncg, sizeField, n]
  simpa using fits

/-- Settles O27: the bytes of PMCGCR<k>, each large enough for its group, and the constant of PMCEID<k>. -/
theorem groupAndEventReads : Obligations.GroupAndEventReads := by
  unfold Obligations.GroupAndEventReads
  intro s k p ns wf _
  refine ⟨⟨s.cfg.pmcgcr k, exec_rd32_answers rfl rfl, fun single => ?_, fun grouped m inWord => ?_⟩,
    exec_rd32_answers rfl rfl⟩
  · rw [Cfg.pmcgcr, if_neg (Nat.not_lt.2 single)]
  · have fits := Cfg.grpN_le wf grouped (4 * k + m)
    rw [pmcgcr_byte grouped k inWord, BitVec.toNat_ofNat, Nat.mod_eq_of_lt (by omega)]
    rfl

/-! ### PMCR -/

/-- Each bit of PMCR is in its place (R282). -/
theorem getLsbD_readPmcr (s : State) (i : Nat) : s.readPmcr.getLsbD i
    = (s.pmcr.e && i == 0 || s.pmcr.d && i == 3 || s.pmcr.x && i == 4 || s.pmcr.dp && i == 5 || s.pmcrNa && i == 8
      || s.pmcr.fzo && i == 9 || s.pmcr.hdbg && i == 10 || s.pmcr.tro && i == 11) := by
  simp [State.readPmcr, getLsbD_bitIf]

theorem readPmcr_bits (s : State) : s.readPmcr.getLsbD 0 = s.pmcr.e ∧ s.readPmcr.getLsbD 3 = s.pmcr.d
    ∧ s.readPmcr.getLsbD 4 = s.pmcr.x ∧ s.readPmcr.getLsbD 5 = s.pmcr.dp ∧ s.readPmcr.getLsbD 8 = s.pmcrNa
    ∧ s.readPmcr.getLsbD 9 = s.pmcr.fzo ∧ s.readPmcr.getLsbD 10 = s.pmcr.hdbg
    ∧ s.readPmcr.getLsbD 11 = s.pmcr.tro := by
  simp [State.readPmcr]

/-- Settles O25: the bits in their places, and for the features that are absent the invariant of R466. -/
theorem pmcrReadShowsBits : Obligations.PmcrReadShowsBits := by
  unfold Obligations.PmcrReadShowsBits
  intro s p ns
  obtain ⟨e, d, x, dp, na, fzo, hdbg, tro⟩ := readPmcr_bits s
  refine ⟨s.readPmcr, exec_rd32_answers rfl rfl, e, d, x, dp, fzo, hdbg, tro, na, fun i elsewhere => ?_,
    fun inv => ?_⟩
  · simp only [List.mem_cons, List.not_mem_nil, or_false, not_or] at elsewhere
    simp [getLsbD_readPmcr, elsewhere]
  · have zero {bit feature : Bool} (needs : bit = true → feature = true) (absent : feature = false) : bit = false :=
      Bool.eq_false_iff.2 fun set => Bool.eq_false_iff.1 absent (needs set)
    rw [d, x, dp, fzo, hdbg, tro]
    exact ⟨zero fun set => Bool.and_eq_true_iff.2 (inv.d set), zero inv.x, zero inv.dp, zero inv.fzo, zero inv.hdbg,
      zero inv.tro⟩

/-! ### IMPDEF<k> -/

section
variable {k : Nat} {d : ImpdefCfg}

theorem impdefHalf_rd (defined : s.cfg.impdefAt k = some d) : (impdefHalf k).rd s = s.impdefAt k := by
  simp [impdefHalf, defined]

theorem impdefHalf_wr (defined : s.cfg.impdefAt k = some d) (v : Word) :
    (impdefHalf k).wr v s = s.putImpdef k (masked d.mask d.fixed v) := by
  simp [impdefHalf, Cfg.impdefValue, defined]

theorem impdefHalf_rd_undefined (undefined : s.cfg.impdefAt k = none) : (impdefHalf k).rd s = 0 := by
  simp [impdefHalf, undefined]

theorem impdefHalf_wr_undefined (undefined : s.cfg.impdefAt k = none) (v : Word) : (impdefHalf k).wr v s = s := by
  simp [impdefHalf, undefined]

end

/-- Settles O28: a write of a defined register stores its value, which a read returns. -/
theorem impdefReadsBackUnderItsMask : Obligations.ImpdefReadsBackUnderItsMask := by
  unfold Obligations.ImpdefReadsBackUnderItsMask
  intro s k p ns v
  refine ⟨fun d defined => ?_, fun undefined => ?_⟩
  · have written : exec (.impdef k ⟨p, ns, .wr32 v⟩) s
        = .next ((s.putImpdef k (masked d.mask d.fixed v)).answer .done) := by
      rw [exec_wr32 rfl, Half.write, Instr.half, impdefHalf_wr defined]
    refine ⟨_, written, exec_rd32_answers rfl ?_, fun j other => ?_, rfl⟩
    · rw [Instr.half, impdefHalf_rd (by exact defined), State.answer_impdefAt, State.putImpdef_impdefAt,
        if_pos rfl, masked]
    · rw [State.answer_impdefAt, State.putImpdef_impdefAt, if_neg (Ne.symm other)]
  · exact ⟨exec_wr32_ignored rfl (impdefHalf_wr_undefined undefined v),
      exec_rd32_answers rfl (impdefHalf_rd_undefined undefined)⟩

end Sys2Proof.Machine
end

section
/-! What the snapshot registers store and read: PMSSRR half by half (R325, R326), and the saved values under each of
their names (R330, R335, R340, R341). -/

set_option Elab.async false

namespace Sys2Proof

/-! ### Words made of a kept half and a masked one -/

/-- A value whose low half is replaced by a masked word keeps its high half. -/
theorem getLsbD_replaceLowHalf (old mask : DWord) (v : Word) (i : Nat) :
    (old.extractLsb' 32 32 ++ (v &&& mask.extractLsb' 0 32)).getLsbD i
      = if i < 32 then v.getLsbD i && mask.getLsbD i else old.getLsbD i := by
  rw [BitVec.getLsbD_append]
  split
  case isTrue low => simp [low]
  case isFalse high =>
    rw [BitVec.getLsbD_extractLsb', Nat.add_sub_cancel' (Nat.not_lt.1 high)]
    by_cases inWord : i < 64
    · rw [decide_eq_true (by omega), Bool.true_and]
    · rw [BitVec.getLsbD_of_ge old i (Nat.not_lt.1 inWord), Bool.and_false]

/-- A value whose high half is replaced by a masked word keeps its low half. -/
theorem getLsbD_replaceHighHalf (old mask : DWord) (v : Word) (i : Nat) :
    ((v &&& mask.extractLsb' 32 32) ++ old.extractLsb' 0 32).getLsbD i
      = if i < 32 then old.getLsbD i else v.getLsbD (i - 32) && mask.getLsbD i := by
  rw [BitVec.getLsbD_append]
  split
  case isTrue low => simp [low]
  case isFalse high =>
    rw [BitVec.getLsbD_and, BitVec.getLsbD_extractLsb', Nat.add_sub_cancel' (Nat.not_lt.1 high)]
    by_cases inWord : i < 64
    · rw [decide_eq_true (by omega), Bool.true_and]
    · rw [BitVec.getLsbD_of_ge v (i - 32) (by omega), Bool.false_and, Bool.false_and]

theorem Cfg.getLsbD_rpmask (c : Cfg) {m : Nat} (inWord : m < 64) : c.rpmask.getLsbD m = (c.ssrr && c.impl m) := by
  rw [Cfg.rpmask, getLsbD_maskOf, decide_eq_true inWord, Bool.true_and]

/-- The slot that saves window m of the overflow flags is the one where PMOVSSR<m> is (R341). -/
theorem Cfg.ovs_unique {c : Cfg} {k m : Nat} (wf : c.wf = true) (ss : c.ss = true) (slot : c.svrSlot k = .ovs m) :
    c.slotIdx (.ovs m) = k := by
  obtain ⟨length, -, -, slots⟩ := Cfg.ss_parts wf ss
  have mapped : k < 64 := by
    by_contra outside
    have unused : c.svrSlot k = .unused := List.getD_eq_default _ _ (by omega)
    exact SvrSlot.noConfusion (slot.symm.trans unused)
  have allowed := slots k mapped
  simp only [Cfg.wfSlot, slot, Bool.and_eq_true, decide_eq_true_eq] at allowed
  obtain ⟨⟨-, place⟩, -⟩ := allowed
  exact place

namespace Machine

variable {s : State} {k : Nat}

/-! ### PMSSRR -/

section
variable (live : s.cfg.ssrr = true)
include live

theorem ssrrLoHalf_wr (v : Word) : ssrrLoHalf.wr v s
    = { s with pmssrr := s.pmssrr.extractLsb' 32 32 ++ (v &&& s.cfg.rpmask.extractLsb' 0 32) } :=
  if_pos live

theorem ssrrHiHalf_wr (v : Word) : ssrrHiHalf.wr v s
    = { s with pmssrr := (v &&& s.cfg.rpmask.extractLsb' 32 32) ++ s.pmssrr.extractLsb' 0 32 } :=
  if_pos live

theorem writeSsrr_eq (d : DWord) : s.writeSsrr d = { s with pmssrr := d &&& s.cfg.rpmask } :=
  if_pos live

/-- Where PMSSRR is implemented, its mask is the implemented monitors (R326). -/
theorem getLsbD_rpmask_of_live {m : Nat} (inWord : m < 64) : s.cfg.rpmask.getLsbD m = s.cfg.impl m := by
  rw [Cfg.getLsbD_rpmask _ inWord, live, Bool.true_and]

end

section
variable (absent : s.cfg.ssrr = false)
include absent

theorem ssrrLoHalf_wr_absent (v : Word) : ssrrLoHalf.wr v s = s := if_neg (Bool.eq_false_iff.1 absent)

theorem ssrrHiHalf_wr_absent (v : Word) : ssrrHiHalf.wr v s = s := if_neg (Bool.eq_false_iff.1 absent)

theorem writeSsrr_absent (d : DWord) : s.writeSsrr d = s := if_neg (Bool.eq_false_iff.1 absent)

end

theorem getLsbD_readSsrr (s : State) {m : Nat} (inWord : m < 64) :
    s.readSsrr.getLsbD m = (s.pmssrr.getLsbD m && (s.cfg.ssrr && s.cfg.impl m)) := by
  rw [State.readSsrr, BitVec.getLsbD_and, Cfg.getLsbD_rpmask _ inWord]

/-- An atomic 64-bit write that changes nothing only answers. -/
theorem exec_wr64_ignored {i : Instr} {d : DWord} (pair : i.supports64 s.cfg = true) (atomic : s.cfg.atomic64 = true)
    (hop : i.access.op = .wr64 d) (h : i.writeBoth d s = s) : exec i s = .next (s.answer .done) := by
  rw [exec_wr64_atomic pair atomic hop, h]

/-- Settles O32: each write form replaces its part under the mask, and each half reads its part of the whole. -/
theorem pmssrrStoresImplementedBits : Obligations.PmssrrStoresImplementedBits := by
  unfold Obligations.PmssrrStoresImplementedBits
  intro s p ns v d
  refine ⟨fun live => ⟨?_, ?_, fun atomic => ?_⟩, fun absent => ⟨?_, ?_, fun atomic => ?_⟩, ?_⟩
  · refine ⟨(ssrrLoHalf.wr v s).answer .done, exec_wr32 rfl, ?_, fun m inWord => ?_⟩ <;> rw [ssrrLoHalf_wr live]
    · rfl
    · rw [State.answer_pmssrr, getLsbD_replaceLowHalf, getLsbD_rpmask_of_live live inWord]
  · refine ⟨(ssrrHiHalf.wr v s).answer .done, exec_wr32 rfl, ?_, fun m inWord => ?_⟩ <;> rw [ssrrHiHalf_wr live]
    · rfl
    · rw [State.answer_pmssrr, getLsbD_replaceHighHalf, getLsbD_rpmask_of_live live inWord]
  · refine ⟨(s.writeSsrr d).answer .done, exec_wr64_atomic rfl atomic rfl, ?_, fun m inWord => ?_⟩
      <;> rw [writeSsrr_eq live]
    · rfl
    · rw [State.answer_pmssrr, BitVec.getLsbD_and, getLsbD_rpmask_of_live live inWord]
  · exact exec_wr32_ignored rfl (ssrrLoHalf_wr_absent absent v)
  · exact exec_wr32_ignored rfl (ssrrHiHalf_wr_absent absent v)
  · exact exec_wr64_ignored rfl atomic rfl (writeSsrr_absent absent d)
  · refine ⟨s.readSsrr.extractLsb' 0 32, s.readSsrr.extractLsb' 32 32, exec_rd32_answers rfl rfl,
      exec_rd32_answers rfl rfl, fun m inHalf => ?_⟩
    rw [BitVec.getLsbD_extractLsb', BitVec.getLsbD_extractLsb', decide_eq_true inHalf, Bool.true_and, Bool.true_and,
      Nat.zero_add, Nat.add_comm 32 m]
    exact ⟨getLsbD_readSsrr s (by omega), getLsbD_readSsrr s (by omega)⟩

/-! ### The saved values -/

/-- With the snapshot extension a location shows its saved value, and zero where the map has none (R335). -/
theorem svrHalf_rd (ss : s.cfg.ss = true) (k : Nat) :
    (svrHalf k).rd s = if s.cfg.svrSlot k = .unused then 0 else s.svrAt k := by
  simp [svrHalf, Half.readOnly, State.readSvr, ss]

theorem svrHalf_rd_mapped (ss : s.cfg.ss = true) {slot : SvrSlot} (mapped : s.cfg.svrSlot k = slot)
    (used : slot ≠ .unused) : (svrHalf k).rd s = s.svrAt k := by
  rw [svrHalf_rd ss, mapped, if_neg used]

theorem svrHalf_rd_absent (absent : s.cfg.ss = false) (k : Nat) : (svrHalf k).rd s = 0 := by
  simp [svrHalf, Half.readOnly, State.readSvr, absent]

/-- Settles O33: each of the registers is the saved value at one index, which the map determines. -/
theorem savedValueReads : Obligations.SavedValueReads := by
  unfold Obligations.SavedValueReads
  intro s k m p ns wf
  refine ⟨fun ss => ⟨exec_rd32_answers rfl (svrHalf_rd ss k), exec_rd32_answers rfl ?_, fun slot =>
    exec_rd32_answers rfl ?_⟩, fun absent => ⟨exec_rd32_answers rfl (svrHalf_rd_absent absent _),
      exec_rd32_answers rfl (svrHalf_rd_absent absent _), exec_rd32_answers rfl (svrHalf_rd_absent absent _)⟩⟩
  · obtain ⟨-, -, slot, -⟩ := Cfg.ss_parts wf ss
    exact svrHalf_rd_mapped ss slot nofun
  · rw [Instr.half, Cfg.ovs_unique wf ss slot]
    exact svrHalf_rd_mapped ss slot nofun

end Machine
end Sys2Proof
end

section
/-! The interrupt message registers: what each stores and reads, and what Non-secure accesses cannot reach (R351 to
R356, R360). -/

set_option Elab.async false

namespace Sys2Proof

/-- The implemented bits of the message address are [PAsize-1:2] (R353). -/
theorem Cfg.getLsbD_amask (c : Cfg) {i : Nat} (inWord : i < 64) :
    c.amask.getLsbD i = (decide (2 ≤ i) && decide (i < c.paSize)) := by
  rw [Cfg.amask, getLsbD_maskOf, decide_eq_true inWord, Bool.true_and]

namespace Machine

variable {s : State} {ns : Bool}

/-! ### A write that is not blocked -/

section
variable (msi : s.cfg.msi = true)
include msi

section
variable (free : s.addrBlocked ns = false)
include free

theorem irqcr0LoHalf_wr (v : Word) : (irqcr0LoHalf ns).wr v s
    = { s with irqcr0 := s.irqcr0.extractLsb' 32 32 ++ (v &&& s.cfg.amask.extractLsb' 0 32) } := by
  simp [irqcr0LoHalf, msi, free]

theorem irqcr0HiHalf_wr (v : Word) : (irqcr0HiHalf ns).wr v s
    = { s with irqcr0 := (v &&& s.cfg.amask.extractLsb' 32 32) ++ s.irqcr0.extractLsb' 0 32 } := by
  simp [irqcr0HiHalf, msi, free]

theorem writeIrqcr0_eq (d : DWord) : s.writeIrqcr0 ns d = { s with irqcr0 := d &&& s.cfg.amask } := by
  simp [State.writeIrqcr0, msi, free]

end

section
variable (free : s.nsBlocked ns = false)
include free

theorem irqcr1Half_wr (v : Word) : (irqcr1Half ns).wr v s = { s with irqcr1 := v } := by
  simp [irqcr1Half, msi, free]

theorem irqcr2Half_wr (v : Word) : (irqcr2Half ns).wr v s
    = { s with irqcr2 := irqcr2Stored s.cfg s.irqcr2 ns v } := by
  simp [irqcr2Half, msi, free]

/-- Bit 1 clears IRQERR where it is 1, and leaves it where it is 0 (R356). -/
theorem irqsrLoHalf_wr (v : Word) : (irqsrLoHalf ns).wr v s
    = { s with irqErr := s.irqErr && !v.getLsbD 1 } := by
  cases cleared : v.getLsbD 1 <;> simp [irqsrLoHalf, msi, free, cleared, -BitVec.getLsbD_eq_getElem]

end

theorem getLsbD_readIrqcr0 {i : Nat} (inWord : i < 64) :
    s.readIrqcr0.getLsbD i = (s.irqcr0.getLsbD i && (decide (2 ≤ i) && decide (i < s.cfg.paSize))) := by
  rw [State.readIrqcr0, if_pos msi, BitVec.getLsbD_and, Cfg.getLsbD_amask _ inWord]

theorem irqcr1Half_rd : (irqcr1Half ns).rd s = s.irqcr1 := if_pos msi

/-- PMIRQSR shows IRQERR in bit 1 and the write in progress in bit 0 (R356). -/
theorem irqsrLoHalf_rd :
    (irqsrLoHalf ns).rd s = BitVec.ofNat 32 (2 * s.irqErr.toNat + s.msiBusy.toNat) := by
  have shown : (irqsrLoHalf ns).rd s = bitIf s.irqErr 1 ||| bitIf s.msiBusy 0 := if_pos msi
  rw [shown]
  cases s.irqErr <;> cases s.msiBusy <;> rfl

/-- What PMIRQCR2 shows, as a word of four fields at their places (R355). -/
theorem readIrqcr2_eq : s.readIrqcr2
    = bitIf (s.cfg.msiCanDisable && s.irqcr2.msien) 7 ||| bitIf (s.cfg.msiNsCfg && s.irqcr2.nsmsi) 6
      ||| (((if s.cfg.msiShCfg then s.irqcr2.sh else 0).setWidth 32) <<< 4)
      ||| (((if s.cfg.msiAttrCfg then s.irqcr2.memAttr else 0).setWidth 32) <<< 0) := by
  rw [State.readIrqcr2, if_pos msi]
  cases s.cfg.msiShCfg <;> cases s.cfg.msiAttrCfg <;> simp

/-- Each field of PMIRQCR2 is in its place, and the rest of the word is zero (R355). -/
theorem readIrqcr2_fields : s.readIrqcr2.extractLsb' 8 24 = 0
    ∧ s.readIrqcr2.getLsbD 7 = (s.cfg.msiCanDisable && s.irqcr2.msien)
    ∧ s.readIrqcr2.getLsbD 6 = (s.cfg.msiNsCfg && s.irqcr2.nsmsi)
    ∧ s.readIrqcr2.extractLsb' 4 2 = (if s.cfg.msiShCfg then s.irqcr2.sh else 0)
    ∧ s.readIrqcr2.extractLsb' 0 4 = (if s.cfg.msiAttrCfg then s.irqcr2.memAttr else 0) := by
  rw [readIrqcr2_eq msi]
  refine ⟨?_, by simp, by simp, ?_, ?_⟩
  all_goals simp [BitVec.extractLsb'_or, bitIf_eq_field, extractLsb'_field, extractLsb'_field_of_outside,
    -BitVec.shiftLeft_zero]

end

/-! ### A write that is ignored -/

/-- A write of PMIRQCR0 has no effect: there is no such register, or the write is blocked (R352, R360, D36). -/
def State.ignoresAddr (s : State) (ns : Bool) : Prop := s.cfg.msi = false ∨ s.addrBlocked ns = true

/-- A write of PMIRQCR1, PMIRQCR2 or PMIRQSR has no effect (R352, R360). -/
def State.ignoresMsg (s : State) (ns : Bool) : Prop := s.cfg.msi = false ∨ s.nsBlocked ns = true

section
variable (h : s.ignoresAddr ns)
include h

theorem irqcr0LoHalf_ignored (v : Word) : (irqcr0LoHalf ns).wr v s = s := by
  obtain absent | blocked := h
  · simp [irqcr0LoHalf, absent]
  · simp [irqcr0LoHalf, blocked]

theorem irqcr0HiHalf_ignored (v : Word) : (irqcr0HiHalf ns).wr v s = s := by
  obtain absent | blocked := h
  · simp [irqcr0HiHalf, absent]
  · simp [irqcr0HiHalf, blocked]

theorem writeIrqcr0_ignored (d : DWord) : s.writeIrqcr0 ns d = s := by
  obtain absent | blocked := h
  · simp [State.writeIrqcr0, absent]
  · simp [State.writeIrqcr0, blocked]

end

section
variable (h : s.ignoresMsg ns)
include h

theorem irqcr1Half_ignored (v : Word) : (irqcr1Half ns).wr v s = s := by
  obtain absent | blocked := h
  · simp [irqcr1Half, absent]
  · simp [irqcr1Half, blocked]

theorem irqcr2Half_ignored (v : Word) : (irqcr2Half ns).wr v s = s := by
  obtain absent | blocked := h
  · simp [irqcr2Half, absent]
  · simp [irqcr2Half, blocked]

theorem irqsrLoHalf_ignored (v : Word) : (irqsrLoHalf ns).wr v s = s := by
  obtain absent | blocked := h
  · simp [irqsrLoHalf, absent]
  · simp [irqsrLoHalf, blocked]

end

/-- While NSMSI is 0, Non-secure writes of the message registers have no effect (R351, R352). -/
theorem ignoresMsg_of_nsLocked (locked : s.nsLocked = true) : s.ignoresMsg true :=
  .inr (by rw [State.nsBlocked, locked]; rfl)

theorem ignoresAddr_of_nsLocked (locked : s.nsLocked = true) (guard : s.cfg.msiAddrNsGuard = true) :
    s.ignoresAddr true :=
  .inr (by rw [State.addrBlocked, locked, guard]; rfl)

/-! ### The statements about each register -/

/-- Settles O34: each write form replaces its part of the address under the mask of the implemented bits, unless it is
blocked, and each half reads its part of the whole. -/
theorem pmirqcr0StoresTheAddress : Obligations.Pmirqcr0StoresTheAddress := by
  unfold Obligations.Pmirqcr0StoresTheAddress
  intro s p ns v d msi addressBit
  refine ⟨fun free => ⟨?_, ?_, fun atomic => ?_⟩, fun blocked => ⟨?_, ?_, fun atomic => ?_⟩, ?_⟩
  · refine ⟨((irqcr0LoHalf ns).wr v s).answer .done, exec_wr32 rfl, ?_, fun i inWord => ?_⟩
      <;> rw [irqcr0LoHalf_wr msi free]
    · rfl
    · rw [State.answer_irqcr0, getLsbD_replaceLowHalf, Cfg.getLsbD_amask _ inWord]
  · refine ⟨((irqcr0HiHalf ns).wr v s).answer .done, exec_wr32 rfl, ?_, fun i inWord => ?_⟩
      <;> rw [irqcr0HiHalf_wr msi free]
    · rfl
    · rw [State.answer_irqcr0, getLsbD_replaceHighHalf, Cfg.getLsbD_amask _ inWord]
  · refine ⟨(s.writeIrqcr0 ns d).answer .done, exec_wr64_atomic rfl atomic rfl, ?_, fun i inWord => ?_⟩
      <;> rw [writeIrqcr0_eq msi free]
    · rfl
    · rw [State.answer_irqcr0, BitVec.getLsbD_and, Cfg.getLsbD_amask _ inWord]
  · exact exec_wr32_ignored rfl (irqcr0LoHalf_ignored (.inr blocked) v)
  · exact exec_wr32_ignored rfl (irqcr0HiHalf_ignored (.inr blocked) v)
  · exact exec_wr64_ignored rfl atomic rfl (writeIrqcr0_ignored (.inr blocked) d)
  · refine ⟨s.readIrqcr0.extractLsb' 0 32, s.readIrqcr0.extractLsb' 32 32, exec_rd32_answers rfl rfl,
      exec_rd32_answers rfl rfl, fun i inHalf => ?_⟩
    rw [BitVec.getLsbD_extractLsb', BitVec.getLsbD_extractLsb', decide_eq_true inHalf, Bool.true_and, Bool.true_and,
      Nat.zero_add, Nat.add_comm 32 i]
    exact ⟨getLsbD_readIrqcr0 msi (by omega), getLsbD_readIrqcr0 msi (by omega)⟩

/-- Settles O35: the writes that are not blocked, with bit 1 of a 64-bit write of PMIRQSR in its low half, and the
reads. -/
theorem pmirqcr1AndPmirqsr : Obligations.Pmirqcr1AndPmirqsr := by
  unfold Obligations.Pmirqcr1AndPmirqsr
  intro s p ns v d msi
  refine ⟨fun free => ⟨?_, ?_, fun atomic => ?_⟩, exec_rd32_answers rfl (irqcr1Half_rd msi),
    exec_rd32_answers rfl (irqsrLoHalf_rd msi), exec_rd32_answers rfl rfl, exec_wr32_ignored rfl rfl⟩
  · rw [exec_wr32 rfl, Half.write, Instr.half, irqcr1Half_wr msi free]; rfl
  · rw [exec_wr32 rfl, Half.write, Instr.half, irqsrLoHalf_wr msi free]; rfl
  · have low : (d.extractLsb' 0 32).getLsbD 1 = d.getLsbD 1 := by simp
    have written := irqsrLoHalf_wr msi free (d.extractLsb' 0 32)
    rw [low] at written
    exact (exec_wr64_atomic rfl atomic rfl).trans
      (congrArg (fun t : State => Host.Outcome.next (t.answer .done)) written)

/-- Settles O36: what a write stores is R355's, and each field of the word read is in its place. -/
theorem pmirqcr2Fields : Obligations.Pmirqcr2Fields := by
  unfold Obligations.Pmirqcr2Fields
  intro s p ns v msi
  refine ⟨fun free => ?_, s.readIrqcr2, exec_rd32_answers rfl rfl, readIrqcr2_fields msi⟩
  rw [exec_wr32 rfl, Half.write, Instr.half, irqcr2Half_wr msi free]
  simp [State.answer, irqcr2Stored]

/-- Settles O38: without the extension each location reads zero and ignores writes, and the message is never ready. -/
theorem absentMessageBlock : Obligations.AbsentMessageBlock := by
  unfold Obligations.AbsentMessageBlock
  intro s a absent
  have notMsi : ¬ s.cfg.msi = true := Bool.eq_false_iff.1 absent
  have noAddr : s.readIrqcr0 = 0 := if_neg notMsi
  refine ⟨fun i hi => ?_, ?_⟩
  · have reserved : i.access = a ∧ (i.half s.cfg).rd s = 0 ∧ ∀ v, (i.half s.cfg).wr v s = s := by
      simp only [List.mem_cons, List.not_mem_nil, or_false] at hi
      obtain rfl | rfl | rfl | rfl | rfl | rfl := hi
      · exact ⟨rfl, congrArg (BitVec.extractLsb' 0 32) noAddr, irqcr0LoHalf_ignored (.inl absent)⟩
      · exact ⟨rfl, congrArg (BitVec.extractLsb' 32 32) noAddr, irqcr0HiHalf_ignored (.inl absent)⟩
      · exact ⟨rfl, if_neg notMsi, irqcr1Half_ignored (.inl absent)⟩
      · exact ⟨rfl, if_neg notMsi, irqcr2Half_ignored (.inl absent)⟩
      · exact ⟨rfl, if_neg notMsi, irqsrLoHalf_ignored (.inl absent)⟩
      · exact ⟨rfl, rfl, fun _ => rfl⟩
    obtain ⟨rfl, zero, ignored⟩ := reserved
    exact ⟨fun read => exec_rd32_answers read zero, fun v write => exec_wr32_ignored write (ignored v)⟩
  · have notReady : s.msiReady = false := by simp [State.msiReady, absent]
    simp [State.take, State.msiStart, notReady]

/-! ### NSMSI -/

/-- `t` has the NSMSI of `s`. -/
def SameNsmsi (s t : State) : Prop := t.irqcr2.nsmsi = s.irqcr2.nsmsi

theorem sameNsmsi_of_counts {t : State} (h : t.apartFromCounts = s.apartFromCounts) : SameNsmsi s t :=
  (congrArg (fun u : State => u.irqcr2.nsmsi) h :)

theorem SameNsmsi.ite {c : Prop} [Decidable c] {t : State} (h : SameNsmsi s t) :
    SameNsmsi s (if c then t else s) := by
  split
  · exact h
  · rfl

theorem sameNsmsi_commit (s : State) (r : MonReg) (v : DWord) : SameNsmsi s (s.commit r v) := by
  cases r with
  | cntr n => rw [State.commit_cntr_eq]; rfl
  | typer n => rfl
  | filtr n => rfl

theorem sameNsmsi_writeMonitorReg (s : State) (r : MonReg) (v : DWord) : SameNsmsi s (s.writeMonitorReg r v) := by
  obtain h | ⟨-, -, h⟩ | ⟨-, -, -, h⟩ := s.writeMonitorReg_cases r v <;> rw [h]
  · rfl
  · exact sameNsmsi_commit (s.dropPend r) r v
  · have reopened := sameNsmsi_of_counts (reopenPresc_counts s r)
    exact reopened

theorem sameNsmsi_writePmcr (s : State) (v : Word) : SameNsmsi s (s.writePmcr v) :=
  (congrArg (fun u : State => u.irqcr2.nsmsi) (zeroes_writePmcr s v).rest :)

/-- A Non-secure write of PMIRQCR2 that is not blocked stores the other fields only (R355, D38). -/
theorem sameNsmsi_irqcr2Half (s : State) (v : Word) : SameNsmsi s ((irqcr2Half true).wr v s) := by
  have kept : (irqcr2Stored s.cfg s.irqcr2 true v).nsmsi = s.irqcr2.nsmsi := by simp [irqcr2Stored]
  exact .ite kept

/-- Each write that a Non-secure access can make keeps NSMSI. -/
theorem sameNsmsi_accessRel {i : Instr} (nonSecure : i.access.ns = true) : AccessRel SameNsmsi i where
  refl _ := rfl
  trans h k := Eq.trans k h
  answer _ _ := rfl
  used _ := rfl
  split _ _ _ _ := rfl
  counter s _ _ _ := sameNsmsi_writeMonitorReg s _ _
  typer s _ _ _ := sameNsmsi_writeMonitorReg s _ _
  filtr s _ _ _ := sameNsmsi_writeMonitorReg s _ _
  cntenSet _ _ _ := rfl
  cntenClr _ _ _ := rfl
  intenSet _ _ _ := rfl
  intenClr _ _ _ := rfl
  ovsSet _ _ _ := rfl
  ovsClr _ _ _ := rfl
  impdef _ _ _ := .ite rfl
  pmcr := sameNsmsi_writePmcr
  capture _ s := sameNsmsi_of_counts (capture_counts s)
  ssrrLo _ _ := .ite rfl
  ssrrHi _ _ := .ite rfl
  ssrr _ _ := .ite rfl
  irqcr0Lo _ _ := .ite rfl
  irqcr0Hi _ _ := .ite rfl
  irqcr0 _ _ := .ite rfl
  irqcr1 _ _ := .ite rfl
  irqcr2 s v := by rw [nonSecure]; exact sameNsmsi_irqcr2Half s v
  irqsr _ _ := .ite rfl

/-- Settles O37: the locked registers ignore Non-secure writes in each form, and no write that a Non-secure access can
make reaches NSMSI. -/
theorem nonSecureAccessesCannotTakeTheMessage : Obligations.NonSecureAccessesCannotTakeTheMessage := by
  unfold Obligations.NonSecureAccessesCannotTakeTheMessage
  refine ⟨fun s p v d locked => ?_, fun i s t nonSecure h => exec_rel (sameNsmsi_accessRel nonSecure) h⟩
  have msg := ignoresMsg_of_nsLocked locked
  have addr := ignoresAddr_of_nsLocked locked
  refine ⟨fun i hi => ?_, fun guard i hi => ?_, fun atomic => ⟨?_, fun guard => ?_⟩⟩
  · simp only [List.mem_cons, List.not_mem_nil, or_false] at hi
    obtain rfl | rfl | rfl | rfl := hi
    · exact exec_wr32_ignored rfl (irqcr1Half_ignored msg v)
    · exact exec_wr32_ignored rfl (irqcr2Half_ignored msg v)
    · exact exec_wr32_ignored rfl (irqsrLoHalf_ignored msg v)
    · exact exec_wr32_ignored rfl rfl
  · simp only [List.mem_cons, List.not_mem_nil, or_false] at hi
    obtain rfl | rfl := hi
    · exact exec_wr32_ignored rfl (irqcr0LoHalf_ignored (addr guard) v)
    · exact exec_wr32_ignored rfl (irqcr0HiHalf_ignored (addr guard) v)
  · exact exec_wr64_ignored rfl atomic rfl (irqsrLoHalf_ignored msg _)
  · exact exec_wr64_ignored rfl atomic rfl (writeIrqcr0_ignored (addr guard) d)

end Machine
end Sys2Proof
end

section
/-! The interrupt message: what a start issues and how its write ends (R358, R359), and that one message goes out per
rise of the interrupt condition (R358, D17). -/

set_option Elab.async false

namespace Sys2Proof.Machine

variable {s t : State}

/-! ### The start of the message -/

theorem msiReady_eq_true : s.msiReady = true ↔ s.cfg.msi = true ∧ s.msiEnabled = true ∧ s.irqCond = true
    ∧ s.irqPrev = false ∧ s.msiBusy = false := by
  simp [State.msiReady, and_assoc]

theorem msiStart_of_not_ready (h : s.msiReady = false) : s.msiStart = s :=
  if_neg (Bool.eq_false_iff.1 h)

/-- The message goes to the implemented bits of the address (R353). -/
theorem getLsbD_msiAddr (s : State) {i : Nat} (inWord : i < 64) : s.msiAddr.getLsbD i
    = (s.irqcr0.getLsbD i && decide (2 ≤ i) && decide (i < s.cfg.paSize)) := by
  rw [State.msiAddr, BitVec.getLsbD_and, Cfg.getLsbD_amask _ inWord, Bool.and_assoc]

theorem msiNS_eq (s : State) : s.msiNS
    = if s.cfg.msiNsCfg then s.irqcr2.nsmsi else s.cfg.msiNsWritable || s.cfg.msiNsFixed := by
  unfold State.msiNS
  cases s.cfg.msiNsWritable <;> rfl

theorem reservedAttr_eq_false : s.reservedAttr = false ↔ (s.cfg.msiShCfg = true → s.irqcr2.sh ≠ 1)
    ∧ (s.cfg.msiAttrCfg = true → s.irqcr2.memAttr ≠ 4 ∧ s.irqcr2.memAttr ≠ 8 ∧ s.irqcr2.memAttr ≠ 12) := by
  simp [State.reservedAttr, and_assoc]

/-- Settles O39: where the start is ready it issues the message that the registers hold; elsewhere one part of being
ready fails. -/
theorem msiStartIssuesTheMessage : Obligations.MsiStartIssuesTheMessage := by
  unfold Obligations.MsiStartIssuesTheMessage
  intro s
  refine ⟨fun msi enabled cond fresh free => ?_, fun h => ?_⟩
  · have started := s.msiStart_eq (msiReady_eq_true.2 ⟨msi, enabled, cond, fresh, free⟩)
    refine ⟨s.msiStart, s.msiMsg, rfl, rfl, fun i => getLsbD_msiAddr s, msiNS_eq s, fun labels => ?_, ?_⟩
    · have usual : ¬ s.reservedAttr = true := Bool.eq_false_iff.1 (reservedAttr_eq_false.2 labels)
      have held : s.msiLabels = (if s.cfg.msiShCfg then s.irqcr2.sh else s.cfg.msiShFixed,
          if s.cfg.msiAttrCfg then s.irqcr2.memAttr else s.cfg.msiAttrFixed) := if_neg usual
      refine ⟨congrArg Prod.fst held, congrArg Prod.snd held, ?_⟩
      rw [started]
      exact if_neg usual
    · rw [started]
  · have notReady : s.msiReady = false := by
      rw [Bool.eq_false_iff, ne_eq, msiReady_eq_true]
      rintro ⟨msi, enabled, cond, fresh, free⟩
      simp [msi, enabled, cond, fresh, free] at h
    exact congrArg Host.Outcome.next (msiStart_of_not_ready notReady)

/-! ### The end of the message write -/

/-- A write that had not reached its target has after an end without error, and may have after one with. -/
theorem endFlight_landed {m : MsiMsg} (flying : s.flight = some m) :
    Landed s (s.endFlight false) m ∧ (Landed s (s.endFlight true) m ∨ SameMemory s (s.endFlight true)) := by
  have arrived : Landed s s.msiArrive m := by
    rw [msiArrive_of_flight flying]
    exact landed_land s m
  refine ⟨?_, ?_⟩
  · obtain h | ⟨noError, -⟩ := s.endFlight_cases false
    · rw [h]; exact arrived
    · cases noError
  · obtain h | ⟨-, h | h⟩ := s.endFlight_cases true <;> rw [h]
    · exact .inl arrived
    · rw [msiArrive_of_flight (s := s.used) flying]
      exact .inl (landed_land s m)
    · exact .inr fun _ => ⟨rfl, rfl⟩

/-- Where no write is still to reach its target, the end is no arrival (R461). -/
theorem endFlight_of_none (landed : s.flight = none) (err : Bool) : s.endFlight err = s := by
  rw [State.endFlight, landed]
  exact msiArrive_of_none landed

/-- Without an error, no free value says whether the write reached its target. -/
theorem endFlight_draws (s : State) : (s.endFlight false).draws = s.draws := by
  obtain h | ⟨noError, -⟩ := s.endFlight_cases false
  · rw [h, State.msiArrive_eq]
  · cases noError

/-- The completion of the write in progress leaves the memory that its end leaves. -/
theorem msiDone_memory (busy : s.msiBusy = true) (err : Bool) :
    (s.msiDone err).memS = (s.endFlight err).memS ∧ (s.msiDone err).memNS = (s.endFlight err).memNS := by
  rw [State.msiDone_eq s err busy]
  exact ⟨rfl, rfl⟩

/-- Settles O42: the completion has the memory that the end of the write leaves, and its error sets IRQERR. -/
theorem msiDoneEndsTheWrite : Obligations.MsiDoneEndsTheWrite := by
  unfold Obligations.MsiDoneEndsTheWrite
  intro s err
  refine ⟨fun busy => ?_, fun idle => ?_⟩
  · obtain ⟨memS, memNS⟩ := msiDone_memory busy err
    have done := State.msiDone_eq s err busy
    have landed {m : MsiMsg} (h : Landed s (s.endFlight err) m) : Landed s (s.msiDone err) m := by
      unfold Landed at h ⊢
      rwa [memS, memNS]
    have same (h : SameMemory s (s.endFlight err)) : SameMemory s (s.msiDone err) := by
      unfold SameMemory at h ⊢
      rwa [memS, memNS]
    refine ⟨s.msiDone err, rfl, fun m flying => ?_, fun none => ?_, fun noError => ?_, ?_⟩
    · obtain ⟨noError, error⟩ := endFlight_landed flying
      cases err with
      | false => exact ⟨fun _ => landed noError, nofun⟩
      | true => exact ⟨nofun, fun _ => error.imp landed same⟩
    · refine same ?_
      rw [endFlight_of_none none]
      exact fun _ => ⟨rfl, rfl⟩
    · subst noError
      rw [done]
      exact endFlight_draws s
    · rw [done]
      cases err <;> simp
  · have nothing : s.msiDone err = s := if_neg (Bool.eq_false_iff.1 idle)
    exact congrArg Host.Outcome.next nothing

/-! ### One message per rise -/

/-- `t` is after a step from `s` that sent a message: the rise had not been signalled, and it is now (R358). -/
structure SendsMessage (s t : State) : Prop where
  issued : ∃ m, t.sent = m :: s.sent
  fresh : s.irqPrev = false
  free : s.msiBusy = false
  cond : s.irqCond = true
  signalled : t.irqPrev = true
  busy : t.msiBusy = true

theorem sent_of_registers (h : t.apartFromRegisters = s.apartFromRegisters) : t.sent = s.sent :=
  (congrArg State.sent h :)

/-- The interrupt condition looks at nothing that a start of the message changes. -/
theorem msiStart_irqCond (s : State) : s.msiStart.irqCond = s.irqCond := by
  cases ready : s.msiReady with
  | true => rw [s.msiStart_eq ready]; rfl
  | false => rw [msiStart_of_not_ready ready]

theorem rearm_of_irqCond (cond : s.irqCond = true) : s.rearm = s := if_pos cond

theorem rearm_sent (s : State) : s.rearm.sent = s.sent := by
  unfold State.rearm
  split <;> rfl

/-- After the re-arm a rise counts as signalled only while the condition holds, so a fall re-arms the message. -/
theorem irqCond_of_rearm_irqPrev (signalled : s.rearm.irqPrev = true) : s.rearm.irqCond = true := by
  cases cond : s.irqCond with
  | true => rw [rearm_of_irqCond cond, cond]
  | false =>
    have rearmed : s.rearm = { s with irqPrev := false } := if_neg (Bool.eq_false_iff.1 cond)
    rw [rearmed] at signalled
    cases signalled

/-- A start of the message, with the re-arm after it, sends a message for a rise not yet signalled, or sends none. -/
theorem msiStart_sends (s : State) : s.msiStart.rearm.sent = s.sent ∨ SendsMessage s s.msiStart.rearm := by
  cases ready : s.msiReady with
  | false => exact .inl (by rw [rearm_sent, msiStart_of_not_ready ready])
  | true =>
    obtain ⟨-, -, cond, fresh, free⟩ := msiReady_eq_true.1 ready
    rw [rearm_of_irqCond ((msiStart_irqCond s).trans cond), s.msiStart_eq ready]
    exact .inr ⟨⟨s.msiMsg, rfl⟩, fresh, free, cond, rfl, rfl⟩

/-- With no input left, the step sends nothing or is a start of the message. -/
theorem idle_sends (h : s.idle = .next t) : t.sent = s.sent ∨ t = s.msiStart := by
  unfold State.idle at h
  split at h
  · exact .inl (sent_of_registers (finishSplit_registers h))
  · split at h
    · cases h
      exact .inl (sent_of_registers (apartFromRegisters_of_counts (chainLo_counts s _)))
    · split at h
      · cases h
        exact .inl (sent_of_registers (takeEffect_registers s _))
      · split at h
        · cases h
          exact .inl rfl
        · split at h
          · cases h
            exact .inl (msiDone_sent s.used _)
          · cases h
            exact .inr rfl

/-- Every agent's step sends nothing, or is a start of the message, by an input or without one (R358). -/
theorem advance_sends (h : s.advance = .next t) :
    t.sent = s.sent ∨ ∃ rest, t = State.msiStart { s with inputs := rest } := by
  unfold State.advance at h
  split at h
  · rename_i i rest _
    by_cases start : i = .msiStart
    · subst start
      cases h
      exact .inr ⟨rest, rfl⟩
    · exact .inl ((take_sent start h).trans rfl)
  · exact (idle_sends h).imp_right fun started => ⟨s.inputs, started⟩

/-- A step of the machine sends one message for a rise not yet signalled, or sends none (R358, D17). -/
theorem step_sends (h : step s = .next t) : t.sent = s.sent ∨ SendsMessage s t := by
  obtain ⟨-, u, advanced, rfl⟩ := step_eq_next h
  obtain same | ⟨rest, rfl⟩ := advance_sends advanced
  · exact .inl ((rearm_sent u).trans same)
  · refine (msiStart_sends { s with inputs := rest }).imp_right fun sends => ?_
    exact ⟨sends.issued, sends.fresh, sends.free, sends.cond, sends.signalled, sends.busy⟩

/-- Settles O41: a step sends a message only for a rise not yet signalled, and the re-arm that ends every step leaves a
rise signalled only while the condition holds. -/
theorem oneMessagePerRise : Obligations.OneMessagePerRise := by
  unfold Obligations.OneMessagePerRise
  intro s t h
  have sends := step_sends h
  refine ⟨sends.imp_right fun m => ⟨m.issued, m.fresh, m.free, m.cond, m.signalled, m.busy⟩, fun signalled => ?_, ?_⟩
  · exact sends.resolve_right fun m => absurd (signalled.symm.trans m.fresh) nofun
  · obtain ⟨-, u, -, rfl⟩ := step_eq_next h
    exact irqCond_of_rearm_irqPrev

end Sys2Proof.Machine
end

section
/-! PMDEVAFF: decoding it gives back the affinity that it encodes (R382 to R386). -/

set_option Elab.async false

namespace Sys2Proof

/-! ### The mark of a subset -/

section
variable (b : Byte) {k : Nat}

/-- The mark of a subset is zero below bit k, one in bit k, and the compared bits above it (R383). -/
theorem getLsbD_affSub {i : Nat} (inByte : i < 8) :
    (affSub b k).getLsbD i = (decide (i = k) || decide (k < i) && b.getLsbD i) := by
  obtain below | rfl | above := Nat.lt_trichotomy i k
  · simp [affSub, below, Nat.lt_succ_of_lt below, Nat.ne_of_lt below, Nat.lt_asymm below]
  · simp [affSub, inByte]
  · simp [affSub, inByte, above, Nat.ne_of_gt above, Nat.sub_ne_zero_of_lt above, Nat.add_sub_cancel' above,
      Nat.not_lt.2 above]

/-- The bits above the mark are the ones that are compared (R384). -/
theorem affSub_compared (k : Nat) : (affSub b k >>> (k + 1)) <<< (k + 1) = (b >>> (k + 1)) <<< (k + 1) := by
  refine BitVec.eq_of_getLsbD_eq fun i inByte => ?_
  by_cases above : k < i
  · have here : k + 1 + (i - (k + 1)) = i := by omega
    simp only [BitVec.getLsbD_shiftLeft, BitVec.getLsbD_ushiftRight, here, getLsbD_affSub b inByte, above,
      Nat.ne_of_gt above, decide_true, decide_false, Bool.true_and, Bool.false_or]
  · simp [Nat.lt_succ_of_le (Nat.not_lt.1 above)]

variable (inField : k ≤ 6)
include inField

theorem getLsbD_affSub_self : (affSub b k).getLsbD k = true := by
  rw [getLsbD_affSub b (by omega), decide_eq_true rfl, Bool.true_or]

theorem affSub_ne_zero : affSub b k ≠ 0#8 := by
  intro zero
  have marked := getLsbD_affSub_self b inField
  rw [zero] at marked
  exact absurd (BitVec.getLsbD_zero.symm.trans marked) Bool.false_ne_true

/-- The mark of a subset is not the value that names a whole level, which has bit 7 alone (R384). -/
theorem affSub_ne_whole : affSub b k ≠ 0x80#8 := by
  intro whole
  have marked := getLsbD_affSub_self b inField
  rw [whole] at marked
  interval_cases k <;> exact absurd marked (by decide)

/-- The position of the mark gives the size of the subset (R384). -/
theorem ctz8_affSub : ctz8 (affSub b k) = k := by
  unfold ctz8
  iterate 8 rw [getLsbD_affSub b (by decide)]
  interval_cases k <;> rfl

end

/-! ### Encoding and decoding -/

section
variable {a : AffCfg}

/-- A part of PMDEVAFF is that part of its fields, the highest first (R382). -/
theorem AffCfg.extractLsb'_encode {f3 f2 f1 f0 : Byte} {f0v : Bool} (fields : a.fields = (f3, f2, f1, f0, f0v)) :
    ∃ u mt : Bool, ∀ start len, a.encode.extractLsb' start len
      = (0#24 ++ f3 ++ BitVec.ofBool f0v ++ BitVec.ofBool u ++ 0#5 ++ BitVec.ofBool mt ++ f2 ++ f1 ++ f0).extractLsb'
        start len := by
  rw [AffCfg.encode, fields]
  exact ⟨_, _, fun _ _ => rfl⟩

/-- PMDEVAFF has each field in its place, and reserved bits that are zero (R382). -/
theorem AffCfg.encode_fields {f3 f2 f1 f0 : Byte} {f0v : Bool} (fields : a.fields = (f3, f2, f1, f0, f0v)) :
    a.encode.extractLsb' 40 24 = 0 ∧ a.encode.extractLsb' 32 8 = f3
    ∧ a.encode.extractLsb' 31 1 = BitVec.ofBool f0v ∧ a.encode.extractLsb' 25 5 = 0
    ∧ a.encode.extractLsb' 16 8 = f2 ∧ a.encode.extractLsb' 8 8 = f1 ∧ a.encode.extractLsb' 0 8 = f0 := by
  obtain ⟨u, mt, packed⟩ := AffCfg.extractLsb'_encode fields
  simp (disch := omega) [packed, BitVec.extractLsb'_append_eq_of_le, BitVec.extractLsb'_append_eq_of_add_le,
    -Nat.reduceAdd]

/-- PMDEVAFF is decoded by its fields (R384). -/
theorem AffCfg.affDecode_encode_eq {f3 f2 f1 f0 : Byte} {f0v : Bool} (fields : a.fields = (f3, f2, f1, f0, f0v)) :
    affDecode a.encode
      = if f0v then some (.onePE f3 f2 f1 f0)
        else if f0 ≠ 0 ∧ f0 ≠ 0x80 then
          some (.subset 0 (ctz8 f0) f3 f2 f1 ((f0 >>> (ctz8 f0 + 1)) <<< (ctz8 f0 + 1)))
        else if f0 = 0x80 then some (.group 1 f3 f2 f1)
        else if f1 ≠ 0 ∧ f1 ≠ 0x80 then
          some (.subset 1 (ctz8 f1) f3 f2 ((f1 >>> (ctz8 f1 + 1)) <<< (ctz8 f1 + 1)) 0)
        else if f1 = 0x80 then some (.group 2 f3 f2 0)
        else if f2 = 0 then none
        else if f2 ≠ 0x80 then some (.subset 2 (ctz8 f2) f3 ((f2 >>> (ctz8 f2 + 1)) <<< (ctz8 f2 + 1)) 0 0)
        else some (.group 3 f3 0 0) := by
  obtain ⟨-, e3, valid, -, e2, e1, e0⟩ := AffCfg.encode_fields fields
  have ev : a.encode.getLsbD 31 = f0v := by
    rw [BitVec.getLsbD_eq_extractLsb', valid]
    cases f0v <;> rfl
  simp only [affDecode, e3, ev, e2, e1, e0]

/-- Decoding inverts the table of R383, row by row. -/
theorem AffCfg.affDecode_encode (wf : a.wf = true) : affDecode a.encode = some a.affinity := by
  obtain ⟨kind, level, k, a3, a2, a1, a0, u, mt⟩ := a
  cases kind with
  | exact =>
    have levels : level ≤ 3 := of_decide_eq_true wf
    interval_cases level <;> exact AffCfg.affDecode_encode_eq rfl
  | subset =>
    have ⟨levels, inField⟩ : level ≤ 2 ∧ k ≤ 6 := of_decide_eq_true wf
    interval_cases level <;> rw [AffCfg.affDecode_encode_eq rfl] <;>
      simp [AffCfg.affinity, affSub_ne_zero _ inField, affSub_ne_whole _ inField, ctz8_affSub _ inField,
        affSub_compared]

end

theorem Cfg.wf_aff {c : Cfg} (wf : c.wf = true) : c.aff.wf = true := by
  obtain ⟨-, -, -, -, ident⟩ := Cfg.wf_parts wf
  simp only [Cfg.wfIdent, Bool.and_eq_true] at ident
  obtain ⟨⟨⟨⟨-, affinity⟩, -⟩, -⟩, -⟩ := ident
  exact affinity

/-- The two words of a double word, put together again. -/
theorem append_words (v : DWord) : v.extractLsb' 32 32 ++ v.extractLsb' 0 32 = v := by
  rw [BitVec.extractLsb'_append_extractLsb'_eq_extractLsb' (by rfl)]
  exact BitVec.extractLsb'_eq_self

theorem extractLsb'_highWord (v : DWord) (start len : Nat) :
    (v.extractLsb' 32 32).extractLsb' start len = v.extractLsb' (start + 32) len := by
  conv_rhs => rw [← append_words v, BitVec.extractLsb'_append_eq_of_le (Nat.le_add_left 32 start),
    Nat.add_sub_cancel]

theorem affDecode_zero : affDecode 0 = none := by decide

namespace Machine

/-- Settles O60: the two words are the halves of the encoding, and zero decodes to no affinity. -/
theorem pmdevaffDecodesToTheAffinity : Obligations.PmdevaffDecodesToTheAffinity := by
  unfold Obligations.PmdevaffDecodesToTheAffinity
  intro s p ns wf
  refine ⟨s.cfg.pmdevaff.extractLsb' 0 32, s.cfg.pmdevaff.extractLsb' 32 32, exec_rd32_answers rfl rfl,
    exec_rd32_answers rfl rfl, fun related => ?_, fun unrelated => ?_⟩
  · have decoded := AffCfg.affDecode_encode (Cfg.wf_aff wf)
    obtain ⟨high, -, -, reserved, -⟩ := AffCfg.encode_fields (a := s.cfg.aff) rfl
    rw [Cfg.pmdevaff, if_pos related, append_words, extractLsb'_highWord, BitVec.extractLsb'_extractLsb'_of_le (by decide)]
    refine ⟨decoded, high, reserved, fun ⟨hi, lo⟩ => ?_⟩
    have zero := append_words s.cfg.aff.encode
    rw [hi, lo] at zero
    rw [← zero] at decoded
    exact Option.some_ne_none _ (decoded.symm.trans affDecode_zero)
  · rw [Cfg.pmdevaff, if_neg (Bool.eq_false_iff.1 unrelated)]
    exact ⟨BitVec.extractLsb'_zero, BitVec.extractLsb'_zero⟩

end Machine
end Sys2Proof
end

section
/-! What the identification and authentication-status registers read, field by field (R376 to R406), and that
read-only registers ignore their writes (R370). -/

set_option Elab.async false

namespace Sys2Proof

open Sys2Proof.Machine

/-! ### Read-only registers -/

/-- The location of a read-only register keeps nothing of what is written (R370, D8). -/
theorem Instr.half_wr_of_isReadOnly {i : Instr} (readOnly : i.isReadOnly = true) (c : Cfg) (v : Word) (s : State) :
    (i.half c).wr v s = s := by
  cases i <;> cases readOnly <;> rfl

/-- Nor does its one-step 64-bit write (R370, D8). -/
theorem Instr.writeBoth_of_isReadOnly {i : Instr} (readOnly : i.isReadOnly = true) (d : DWord) (s : State) :
    i.writeBoth d s = s := by
  cases i <;> cases readOnly <;> rfl

section
variable {c : Cfg}

/-! ### The fields of each word -/

theorem Cfg.extractLsb'_pmdevarch (c : Cfg) (second : Bool) (start len : Nat) :
    (c.pmdevarch second).extractLsb' start len
      = (0x477#12 ++ (c.pageId second).archRev ++ (c.pageId second).archVer
        ++ (c.pageId second).archPart).extractLsb' start len := rfl

/-- PMDEVARCH: ARCHITECT and PRESENT, which the 12-bit constant holds together, and the constants of the page
(R378). -/
theorem Cfg.pmdevarch_fields (c : Cfg) (second : Bool) : (c.pmdevarch second).extractLsb' 21 11 = 0x23B
    ∧ (c.pmdevarch second).getLsbD 20 = true
    ∧ (c.pmdevarch second).extractLsb' 16 4 = (c.pageId second).archRev
    ∧ (c.pmdevarch second).extractLsb' 12 4 = (c.pageId second).archVer
    ∧ (c.pmdevarch second).extractLsb' 0 12 = (c.pageId second).archPart := by
  rw [BitVec.getLsbD_eq_extractLsb']
  simp (disch := omega) [Cfg.extractLsb'_pmdevarch, BitVec.extractLsb'_append_eq_of_le,
    BitVec.extractLsb'_append_eq_of_add_le, -Nat.reduceAdd]

theorem Cfg.extractLsb'_pmdevtype (c : Cfg) (second : Bool) (start len : Nat) :
    (c.pmdevtype second).extractLsb' start len
      = (0#24 ++ (c.pageId second).devSub ++ 6#4).extractLsb' start len := rfl

/-- PMDEVTYPE: SUB of the page and the constant MAJOR (R380). -/
theorem Cfg.pmdevtype_fields (c : Cfg) (second : Bool) : (c.pmdevtype second).extractLsb' 8 24 = 0
    ∧ (c.pmdevtype second).extractLsb' 4 4 = (c.pageId second).devSub
    ∧ (c.pmdevtype second).extractLsb' 0 4 = 6 := by
  simp (disch := omega) [Cfg.extractLsb'_pmdevtype, BitVec.extractLsb'_append_eq_of_le,
    BitVec.extractLsb'_append_eq_of_add_le, -Nat.reduceAdd]

theorem Cfg.extractLsb'_pmiidr (present : c.hasIIDR = true) (start len : Nat) : c.pmiidr.extractLsb' start len
    = (c.part.extractLsb' 0 12 ++ c.revMajor ++ c.revMinor ++ c.jepCont ++ 0#1 ++ c.jepId).extractLsb' start len := by
  rw [Cfg.pmiidr, if_pos present]

/-- PMIIDR: ProductID, Variant, Revision and Implementer, whose bit 7 is zero (R390). -/
theorem Cfg.pmiidr_fields (present : c.hasIIDR = true) :
    c.pmiidr.extractLsb' 20 12 = c.part.extractLsb' 0 12 ∧ c.pmiidr.extractLsb' 16 4 = c.revMajor
    ∧ c.pmiidr.extractLsb' 12 4 = c.revMinor ∧ c.pmiidr.extractLsb' 8 4 = c.jepCont
    ∧ c.pmiidr.getLsbD 7 = false ∧ c.pmiidr.extractLsb' 0 7 = c.jepId := by
  rw [BitVec.getLsbD_eq_extractLsb']
  simp (disch := omega) [Cfg.extractLsb'_pmiidr present, BitVec.extractLsb'_append_eq_of_le,
    BitVec.extractLsb'_append_eq_of_add_le, -Nat.reduceAdd]

/-- A Peripheral Identification register holds two fields of four bits (R395). -/
theorem Cfg.pidr_fields (present : c.hasPIDR = true) (hi lo : BitVec 4) : (c.pidr (hi ++ lo)).extractLsb' 8 24 = 0
    ∧ (c.pidr (hi ++ lo)).extractLsb' 4 4 = hi ∧ (c.pidr (hi ++ lo)).extractLsb' 0 4 = lo := by
  rw [Cfg.pidr, if_pos present]
  refine ⟨BitVec.extractLsb'_append_eq_left, ?_, ?_⟩
  · exact (BitVec.extractLsb'_append_eq_of_add_le (by decide)).trans BitVec.extractLsb'_append_eq_left
  · exact (BitVec.extractLsb'_append_eq_of_add_le (by decide)).trans BitVec.extractLsb'_append_eq_right

/-- PMPIDR0: PART_0 as its two halves (R396). -/
theorem Cfg.pidr0_eq (c : Cfg) : c.pidr0 = c.part.extractLsb' 4 4 ++ c.part.extractLsb' 0 4 := by
  rw [BitVec.extractLsb'_append_extractLsb'_eq_extractLsb' (by rfl)]
  rfl

/-- PMPIDR2: JEDEC stands above DES_1 in the low half (R398). -/
theorem Cfg.pidr2_eq (c : Cfg) : c.pidr2
    = (if c.part16 then c.part.extractLsb' 12 4 else c.revMajor) ++ (8 ||| (c.jepId.extractLsb' 4 3).setWidth 4) := by
  have low (des : BitVec 3) : 8 ||| des.setWidth 4 = 1#1 ++ des := by revert des; decide
  rw [low]
  exact BitVec.append_assoc

end

namespace Machine

variable {s : State}

/-- PMAUTHSTATUS: the status of each class that the PMU has, and no invasive debug (R376). -/
theorem readAuthstatus_fields (s : State) : s.readAuthstatus.extractLsb' 8 24 = 0
    ∧ s.readAuthstatus.extractLsb' 6 2
      = (if !s.cfg.secExt && !s.cfg.pmuSecure then 0 else Auth.bits s.env.snid)
    ∧ s.readAuthstatus.extractLsb' 4 2 = 0
    ∧ s.readAuthstatus.extractLsb' 2 2
      = (if !s.cfg.secExt && s.cfg.pmuSecure then 0 else Auth.bits s.env.nsnid)
    ∧ s.readAuthstatus.extractLsb' 0 2 = 0 := by
  unfold State.readAuthstatus
  generalize (if !s.cfg.secExt && !s.cfg.pmuSecure then 0 else Auth.bits s.env.snid) = snid
  generalize (if !s.cfg.secExt && s.cfg.pmuSecure then 0 else Auth.bits s.env.nsnid) = nsnid
  revert snid nsnid
  decide

theorem Auth.bits_cases (x : Auth) : (x = .notImplemented → x.bits = 0) ∧ (x = .disabled → x.bits = 2)
    ∧ (x = .enabled → x.bits = 3) := by
  cases x <;> decide

/-- A register of the Peripheral Identification scheme reads its two fields (R395). -/
theorem exec_rd32_pidr {i : Instr} {hi lo : BitVec 4} (present : s.cfg.hasPIDR = true) (hop : i.access.op = .rd32)
    (location : (i.half s.cfg).rd s = s.cfg.pidr (hi ++ lo)) : ∃ w : Word, exec i s = .next (s.answer (.data32 w))
      ∧ w.extractLsb' 8 24 = 0 ∧ w.extractLsb' 4 4 = hi ∧ w.extractLsb' 0 4 = lo :=
  ⟨_, exec_rd32_answers hop location, Cfg.pidr_fields present hi lo⟩

/-- Settles O9: neither the location of a read-only register nor its 64-bit write changes the state. -/
theorem readOnlyRegistersIgnoreWrites : Obligations.ReadOnlyRegistersIgnoreWrites := by
  unfold Obligations.ReadOnlyRegistersIgnoreWrites
  intro i s readOnly
  exact ⟨fun v hop => exec_wr32_ignored hop (Instr.half_wr_of_isReadOnly readOnly s.cfg v s),
    fun d hop pair atomic => exec_wr64_ignored pair atomic hop (Instr.writeBoth_of_isReadOnly readOnly d s)⟩

/-- Settles O57: each register is a byte of the scheme, of two fields or a constant, or reserved. -/
theorem peripheralIdentificationReads : Obligations.PeripheralIdentificationReads := by
  unfold Obligations.PeripheralIdentificationReads
  intro s p ns a reads byte
  refine ⟨fun present => ⟨?_, ?_, ?_, ?_, ?_, ?_⟩, fun absent => ?_, ?_⟩
  · exact exec_rd32_pidr present rfl (congrArg s.cfg.pidr s.cfg.pidr0_eq)
  · exact exec_rd32_pidr present rfl rfl
  · exact exec_rd32_pidr present rfl (congrArg s.cfg.pidr s.cfg.pidr2_eq)
  · exact exec_rd32_pidr present rfl rfl
  · exact exec_rd32_pidr present rfl rfl
  · have constant (b : Byte) : s.cfg.pidr b = 0#24 ++ b := if_pos present
    exact ⟨exec_rd32_answers rfl (constant 0x0D), exec_rd32_answers rfl (constant 0x90),
      exec_rd32_answers rfl (constant 0x05), exec_rd32_answers rfl (constant 0xB1)⟩
  · have zero (b : Byte) : s.cfg.pidr b = 0 := if_neg (Bool.eq_false_iff.1 absent)
    simp only [List.forall_mem_cons]
    exact ⟨exec_rd32_answers rfl (zero _), exec_rd32_answers rfl (zero _), exec_rd32_answers rfl (zero _),
      exec_rd32_answers rfl (zero _), exec_rd32_answers rfl (zero _), exec_rd32_answers rfl (zero _),
      exec_rd32_answers rfl (zero _), exec_rd32_answers rfl (zero _), exec_rd32_answers rfl (zero _), nofun⟩
  · exact ⟨exec_rd32_answers rfl rfl, exec_rd32_answers rfl rfl, exec_rd32_answers rfl rfl⟩

/-- Settles O58: the words of the page accessed, each with its fields in their places. -/
theorem deviceIdentificationReads : Obligations.DeviceIdentificationReads := by
  unfold Obligations.DeviceIdentificationReads
  intro s p ns a reads id
  have page : s.cfg.pageId (p == .p1) = id := by cases p <;> rfl
  refine ⟨⟨_, exec_rd32_answers rfl rfl, ?_⟩, ⟨_, exec_rd32_answers rfl rfl, ?_⟩, exec_rd32_answers rfl rfl,
    fun present => ⟨_, exec_rd32_answers rfl rfl, Cfg.pmiidr_fields present⟩,
    fun absent => exec_rd32_answers rfl (if_neg (Bool.eq_false_iff.1 absent))⟩
  · rw [← page]
    exact s.cfg.pmdevarch_fields (p == .p1)
  · rw [← page]
    exact s.cfg.pmdevtype_fields (p == .p1)

/-- Settles O59: each class's field is its status unless the PMU has only the other class, and a class is allowed
where its status is enabled. -/
theorem pmauthstatusShowsWhatIsAllowed : Obligations.PmauthstatusShowsWhatIsAllowed := by
  unfold Obligations.PmauthstatusShowsWhatIsAllowed
  intro s p ns status
  obtain ⟨high, snid, bits4, nsnid, bits0⟩ := readAuthstatus_fields s
  refine ⟨s.readAuthstatus, exec_rd32_answers rfl rfl, high, bits4, bits0, fun ⟨ext, cls⟩ => ?_, fun has => ?_,
    fun ⟨ext, cls⟩ => ?_, fun has => ?_, beq_iff_eq, beq_iff_eq⟩
  · rw [snid, ext, cls]
    rfl
  · rw [snid, if_neg (by obtain h | h := has <;> simp [h])]
    exact Auth.bits_cases s.env.snid
  · rw [nsnid, ext, cls]
    rfl
  · rw [nsnid, if_neg (by obtain h | h := has <;> simp [h])]
    exact Auth.bits_cases s.env.nsnid

end Machine
end Sys2Proof
end

section
/-! The invariants of R466, write by write: what a value must satisfy for a component that holds it to meet them. -/

set_option Elab.async false

namespace Sys2Proof.Machine

variable {s : State} {n : Nat}

/-- The invariants of R466 under a well-formed configuration, the only ones that steps start from (R8, D3). -/
structure Sound (s : State) : Prop extends Inv s where
  cfgWf : s.cfg.wf = true

/-! ### Bits outside a mask -/

theorem and_not_eq_zero_iff {v mask : DWord} :
    v &&& ~~~mask = 0 ↔ ∀ i, v.getLsbD i = true → mask.getLsbD i = true := by
  constructor
  · intro none i set
    have bit := congrArg (BitVec.getLsbD · i) none
    simpa [set, BitVec.lt_of_getLsbD set, -BitVec.getLsbD_eq_getElem] using bit
  · intro inside
    refine BitVec.eq_of_getLsbD_eq fun i inWord => ?_
    cases set : v.getLsbD i
    · simp [set, -BitVec.getLsbD_eq_getElem]
    · simp [inside i set, -BitVec.getLsbD_eq_getElem]

theorem masked_and_not (v mask : DWord) : v &&& mask &&& ~~~mask = 0 :=
  and_not_eq_zero_iff.2 fun i set => by
    rw [BitVec.getLsbD_and, Bool.and_eq_true] at set
    exact set.2

theorem replaceLowHalf_and_not {old mask : DWord} (h : old &&& ~~~mask = 0) (v : Word) :
    (old.extractLsb' 32 32 ++ (v &&& mask.extractLsb' 0 32)) &&& ~~~mask = 0 :=
  and_not_eq_zero_iff.2 fun i set => by
    rw [getLsbD_replaceLowHalf] at set
    split at set
    · exact (Bool.and_eq_true_iff.1 set).2
    · exact and_not_eq_zero_iff.1 h i set

theorem replaceHighHalf_and_not {old mask : DWord} (h : old &&& ~~~mask = 0) (v : Word) :
    ((v &&& mask.extractLsb' 32 32) ++ old.extractLsb' 0 32) &&& ~~~mask = 0 :=
  and_not_eq_zero_iff.2 fun i set => by
    rw [getLsbD_replaceHighHalf] at set
    split at set
    · exact and_not_eq_zero_iff.1 h i set
    · exact (Bool.and_eq_true_iff.1 set).2

/-! ### Values that fit their registers -/

theorem setWidth_setWidth_word (w : Word) : (w.setWidth 64).setWidth 32 = w := by
  rw [BitVec.setWidth_setWidth_of_le _ (by decide), BitVec.setWidth_eq]

theorem fits_wrap (c : Cfg) (n v : Nat) : c.fits (c.wrap n v) (.cntr n) := Cfg.wrap_lt v

theorem fits_typerValue (c : Cfg) (n : Nat) (v : Word) : c.fits ((c.typerValue n v).setWidth 64) (.typer n) := by
  intro m implemented _
  rw [Cfg.typerValue, implemented, setWidth_setWidth_word]
  exact masked_fixed _ _ _

theorem fits_filtrValue (c : Cfg) (n : Nat) (v : Word) : c.fits ((c.filtrValue n v).setWidth 64) (.filtr n) := by
  intro m implemented _
  rw [Cfg.filtrValue, implemented, setWidth_setWidth_word]
  exact masked_fixed _ _ _

/-! ### Register arrays -/

theorem Sound.putX (h : Sound s) {v : DWord} (fits : s.cfg.fits v (.cntr n)) : Sound (s.putX n v) :=
  { h with
    values := fun k => by
      rw [State.putX_xAt]
      split
      case isTrue same => exact same ▸ fits
      case isFalse => exact h.values k
    tables := { h.tables with x := Sparse.wf_set h.tables.x } }

theorem Sound.putTyper (h : Sound s) {v : DWord} (fits : s.cfg.fits v (.typer n)) :
    Sound (s.putTyper n (v.setWidth 32)) :=
  { h with
    typer := fun k => by
      rw [State.putTyper_typerAt]
      split
      case isTrue same =>
        intro m
        rw [setWidth_setWidth_word]
        exact same ▸ fits m
      case isFalse => exact h.typer k
    tables := { h.tables with typer := Sparse.wf_set h.tables.typer } }

theorem Sound.putFiltr (h : Sound s) {v : DWord} (fits : s.cfg.fits v (.filtr n)) :
    Sound (s.putFiltr n (v.setWidth 32)) :=
  { h with
    filtr := fun k => by
      rw [State.putFiltr_filtrAt]
      split
      case isTrue same =>
        intro m
        rw [setWidth_setWidth_word]
        exact same ▸ fits m
      case isFalse => exact h.filtr k
    tables := { h.tables with filtr := Sparse.wf_set h.tables.filtr } }

theorem Sound.putSvr (h : Sound s) {v : Word} (status : n = s.cfg.ssrIdx → v &&& ~~~1 = 0) :
    Sound (s.putSvr n v) :=
  { h with
    ssr := by
      rw [State.putSvr_svrAt]
      split
      case isTrue same => exact status same
      case isFalse => exact h.ssr
    tables := { h.tables with svr := Sparse.wf_set h.tables.svr } }

theorem Sound.putImpdef (h : Sound s) (n : Nat) (v : Word) : Sound (s.putImpdef n v) :=
  { h with tables := { h.tables with impdef := Sparse.wf_set h.tables.impdef } }

/-- Only the even counter of a pair that is not updated atomically may have an update held back (R466 (7)). -/
theorem Sound.putLow (h : Sound s) {a : Nat} (held : a ≠ 0 → s.cfg.chain = true ∧ s.cfg.chainAtomic = false
    ∧ n % 2 = 0 ∧ s.cfg.hasFlag n = true) : Sound (s.putLow n a) :=
  { h with
    low := fun k some => by
      rw [State.putLow_lowAt] at some
      split at some
      case isTrue same => exact same ▸ held some
      case isFalse => exact h.low k some
    tables := { h.tables with lowPend := Sparse.wf_set h.tables.lowPend } }

/-! ### The vectors -/

theorem Sound.putCnten (h : Sound s) {v : Vec} (present : ∀ k, v.getLsbD k = true → s.cfg.impl k = true) :
    Sound (putCnten v s) :=
  { h with enables := present, tables := { h.tables with } }

theorem Sound.putInten (h : Sound s) {v : Vec} (present : ∀ k, v.getLsbD k = true → s.cfg.hasFlag k = true) :
    Sound (putInten v s) :=
  { h with intens := present, tables := { h.tables with } }

theorem Sound.putOvs (h : Sound s) {v : Vec} (present : ∀ k, v.getLsbD k = true → s.cfg.hasFlag k = true) :
    Sound (putOvs v s) :=
  { h with flags := present, tables := { h.tables with } }

theorem Sound.raiseOvs (h : Sound s) (flag : s.cfg.hasFlag n = true) : Sound (s.raiseOvs n) :=
  h.putOvs fun k set => by
    have set : (s.ovsBit k || decide (k = n ∧ k < 256)) = true := (raiseOvs_ovsBit k).symm.trans set
    rw [Bool.or_eq_true, decide_eq_true_eq] at set
    obtain before | ⟨rfl, -⟩ := set
    · exact h.flags k before
    · exact flag

theorem Sound.dropOvs (h : Sound s) (n : Nat) : Sound (s.dropOvs n) :=
  h.putOvs fun k set => by
    rw [BitVec.getLsbD_and, Bool.and_eq_true] at set
    exact h.flags k set.1

/-! ### Pending writes, free values, the prescaler phase, answers -/

theorem Sound.setPend (h : Sound s) {l : List PendEntry} (noPend : s.cfg.na = true → l = [])
    (pend : ∀ p ∈ l, p.reg.writable s.cfg = true ∧ s.cfg.fits p.val p.reg) : Sound { s with pend := l } :=
  { h with noPend, pend, tables := { h.tables with } }

/-- Of the pending writes any may be left out. -/
theorem Sound.keepPend (h : Sound s) {l : List PendEntry} (sub : l ⊆ s.pend) : Sound { s with pend := l } :=
  h.setPend (fun na => List.subset_nil.1 (h.noPend na ▸ sub)) fun p mem => h.pend p (sub mem)

theorem Sound.dropPend (h : Sound s) (r : MonReg) : Sound (s.dropPend r) :=
  h.keepPend (List.filter_subset_self _)

theorem Sound.used (h : Sound s) : Sound s.used := { h with tables := { h.tables with } }

theorem Sound.answer (h : Sound s) (r : Resp) : Sound (s.answer r) := { h with tables := { h.tables with } }

theorem Sound.setPresc (h : Sound s) {p : BitVec 6} (prescaler : s.cfg.ccd = false → p = 0) :
    Sound { s with presc := p } :=
  { h with presc := prescaler, tables := { h.tables with } }

theorem Sound.redrawPresc (h : Sound s) : Sound s.redrawPresc := by
  unfold State.redrawPresc
  split
  case isTrue has =>
    have drawn : Sound { s with presc := s.drawn.setWidth 6 } :=
      h.setPresc fun hasNot => by simp [hasNot] at has
    exact drawn.used
  case isFalse => exact h

/-! ### Writes under a condition -/

/-- What is done only under a condition may use it. -/
theorem Sound.ite {c : Prop} [Decidable c] {t u : State} (h : c → Sound t) (k : ¬ c → Sound u) :
    Sound (if c then t else u) := by
  split
  · exact h ‹_›
  · exact k ‹_›

end Sys2Proof.Machine
end

section
/-! The operations and the steps of the PMU core keep the invariants of R466. -/

set_option Elab.async false

namespace Sys2Proof.Machine

variable {s : State} {n : Nat}

/-! ### Counting -/

theorem Sound.addTo (h : Sound s) (flag : s.cfg.hasFlag n = true) (a : Nat) : Sound (s.addTo n a) := by
  have added := h.putX (fits_wrap s.cfg n ((s.xAt n).toNat + a))
  exact .ite (fun _ => added.raiseOvs flag) fun _ => added

/-- A held-back update is one of a counter with a flag (R466 (7)), so the flag that it sets is implemented. -/
theorem Sound.chainLo (h : Sound s) (n : Nat) : Sound (s.chainLo n) := by
  refine .ite (fun _ => h) fun held => ?_
  obtain ⟨-, -, -, flag⟩ := h.low n held
  exact ((h.putX (fits_wrap s.cfg n _)).raiseOvs flag).putLow fun zero => absurd rfl zero

/-- The odd counter of a chained pair is a counter, and each counter has a flag (R8, R182). -/
theorem Sound.chainFrom (h : Sound s) (n : Nat) (e : Occ) : Sound (s.chainFrom n e) := by
  obtain ⟨chained, eq⟩ | eq := s.chainFrom_cases n e <;> rw [eq]
  · obtain ⟨-, -, counter, -⟩ := chained_eq_true.1 chained
    exact h.addTo (Cfg.hasFlag_of_isCounter h.cfgWf counter) 1
  · exact h

theorem Sound.chainFromFrozen (h : Sound s) (before : OpSt) (n : Nat) (e : Occ) :
    Sound (s.chainFromFrozen before n e) := by
  obtain eq | eq | eq | eq := s.chainFromFrozen_cases before n e <;> rw [eq]
  · exact h.chainFrom n e
  · exact h
  · exact h.used.chainFrom n e
  · exact h.used

theorem Sound.countBy (h : Sound s) (flag : s.cfg.hasFlag n = true) (a : Nat) (e : Occ) :
    Sound (s.countBy n a e) := by
  obtain eq | eq | ⟨chain, chained, nonAtomic, eq⟩ := s.countBy_cases n a e <;> rw [eq]
  · exact h.addTo flag a
  · exact (h.addTo flag a).chainFromFrozen _ n e
  · obtain ⟨even, -⟩ := chained_eq_true.1 chained
    have cfg := (sameSetup_chainFrom s n e).cfg
    refine (h.chainFrom n e).putLow fun _ => ?_
    rw [cfg]
    exact ⟨chain, nonAtomic, even, flag⟩

theorem Sound.count (h : Sound s) (n : Nat) (e : Occ) : Sound (s.count n e) := by
  refine .ite (fun counted => ?_) fun _ => h
  rw [Bool.and_eq_true, Bool.and_eq_true] at counted
  obtain ⟨⟨counter, -⟩, -⟩ := counted
  refine (h.chainLo n).countBy ?_ _ e
  rw [(sameSetup_chainLo s n).cfg]
  exact Cfg.hasFlag_of_isCounter h.cfgWf counter

theorem Sound.monitorUpdate (h : Sound s) (n : Nat) (v : DWord) (ovf : Bool) (e : Occ) :
    Sound (s.monitorUpdate n v ovf e) := by
  refine .ite (fun monitored => ?_) fun _ => h
  rw [Bool.and_eq_true, Bool.and_eq_true] at monitored
  obtain ⟨⟨impl, -⟩, -⟩ := monitored
  have stored := h.putX (fits_wrap s.cfg n v.toNat)
  refine .ite (fun overflow => stored.raiseOvs ?_) fun _ => stored
  exact Bool.and_eq_true_iff.2 ⟨impl, (Bool.and_eq_true_iff.1 overflow).1⟩

/-- The cycle counter has a flag (R187), and its phase moves only where there is a prescaler. -/
theorem Sound.cycle (h : Sound s) (c : Occ) : Sound (s.cycle c) := by
  refine .ite (fun counted => ?_) fun _ => h
  obtain ⟨-, -, -, flag⟩ := Cfg.cc_parts h.cfgWf (Bool.and_eq_true_iff.1 counted).1
  refine .ite (fun scaled => ?_) fun _ => h.addTo flag 1
  have phase : Sound { s with presc := s.presc + 1 } := h.setPresc fun hasNot => by simp [hasNot] at scaled
  exact .ite (fun _ => phase.addTo flag 1) fun _ => phase

/-! ### Writes of monitor registers -/

theorem Sound.commit (h : Sound s) (r : MonReg) {v : DWord} (fits : s.cfg.fits v r) : Sound (s.commit r v) := by
  cases r with
  | cntr n =>
    have stored : Sound ((s.chainLo n).putX n v) := by
      refine (h.chainLo n).putX ?_
      rw [(sameSetup_chainLo s n).cfg]
      exact fits
    exact .ite (fun _ => stored.redrawPresc) fun _ => stored
  | typer n => exact h.putTyper fits
  | filtr n => exact h.putFiltr fits

theorem Sound.reopenPresc (h : Sound s) (r : MonReg) : Sound (s.reopenPresc r) := by
  cases r with
  | cntr n => exact .ite (fun _ => h.redrawPresc) fun _ => h
  | typer n => exact h
  | filtr n => exact h

theorem Sound.writeMonitorReg (h : Sound s) (r : MonReg) {v : DWord} (fits : s.cfg.fits v r) :
    Sound (s.writeMonitorReg r v) := by
  obtain eq | ⟨-, -, eq⟩ | ⟨writable, deferred, -, eq⟩ := s.writeMonitorReg_cases r v <;> rw [eq]
  · exact h
  · exact (h.dropPend r).commit r fits
  · have cfg := (sameSetup_reopenPresc s r).cfg
    have pend := pend_of_counts (reopenPresc_counts s r)
    refine (h.reopenPresc r).setPend (fun na => ?_) fun p mem => ?_
    · rw [cfg, deferred] at na
      cases na
    · rw [cfg]
      obtain before | rfl := List.mem_append.1 mem |>.imp_right List.mem_singleton.1
      · exact h.pend p before
      · exact ⟨writable, fits⟩

theorem Sound.takeEffect (h : Sound s) (r : MonReg) : Sound (s.takeEffect r) := by
  unfold State.takeEffect
  split
  case h_1 v rest oldest =>
    obtain ⟨taken, others⟩ := takeOldest_mem oldest
    obtain ⟨-, fits⟩ := h.pend _ taken
    exact (h.keepPend others).commit r fits
  case h_2 => exact h

/-! ### Resets of monitors -/

theorem Sound.zeroX (h : Sound s) (n : Nat) : Sound (s.putX n 0) := h.putX (Nat.two_pow_pos _)

theorem Sound.clearMonitor (h : Sound s) (n : Nat) : Sound (s.clearMonitor n) :=
  ((h.chainLo n).dropPend _).zeroX n

theorem Sound.resetMonitors (h : Sound s) : Sound s.resetMonitors :=
  List.foldlRecOn _ _ h fun _ t n _ => t.clearMonitor n

theorem Sound.resetCycleCounter (h : Sound s) : Sound s.resetCycleCounter :=
  (h.clearMonitor 31).redrawPresc

/-! ### Captures -/

/-- A slot other than that of PMSSSR is at another index (R213), so only the zero saved for it reaches PMSSSR. -/
theorem Sound.captureSlot (h : Sound s) (ss : s.cfg.ss = true) (k : Nat) : Sound (s.captureSlot k) := by
  obtain ⟨-, -, status, -⟩ := Cfg.ss_parts h.cfgWf ss
  have other {v : Word} (slot : s.cfg.svrSlot k ≠ .ssr) : Sound (s.putSvr k v) :=
    h.putSvr fun same => absurd status (same ▸ slot)
  unfold State.captureSlot
  split
  case h_1 n slot => exact other (by simp [slot])
  case h_2 n slot => exact other (by simp [slot])
  case h_3 m slot => exact other (by simp [slot])
  case h_4 => exact h.putSvr fun _ => rfl
  case h_5 j slot => exact (other (by simp [slot])).used
  case h_6 => exact h

theorem Sound.captureClear (h : Sound s) (m : Nat) : Sound (s.captureClear m) :=
  .ite (fun _ => ((h.chainLo m).zeroX m).dropOvs m) fun _ => h

theorem Sound.captureReset (h : Sound s) : Sound s.captureReset :=
  .ite (fun _ => List.foldlRecOn _ _ h fun _ t m _ => t.captureClear m) fun _ => h

theorem Sound.capture (h : Sound s) : Sound s.capture := by
  refine .ite (fun _ => h) fun has => .ite (fun _ => ?_) fun _ => h.putSvr fun _ => rfl
  have ss : s.cfg.ss = true := by simpa using has
  have saved : Sound ((List.range 64).foldl State.captureSlot s)
      ∧ ((List.range 64).foldl State.captureSlot s).cfg.ss = true :=
    List.foldlRecOn _ _ (motive := fun t => Sound t ∧ t.cfg.ss = true) ⟨h, ss⟩ fun t ⟨sound, ss⟩ k _ =>
      ⟨sound.captureSlot ss k, by rw [captureSlot_eq]; exact ss⟩
  exact saved.1.captureReset

theorem Sound.snapReq (h : Sound s) : Sound s.snapReq := .ite (fun _ => h.capture) fun _ => h

/-! ### Settling -/

theorem fzo_of_wait (wait : s.opState = .wait) : s.cfg.fzo = true := by
  cases enabled : s.pmcr.e
  · rw [opState_of_disabled enabled] at wait
    cases wait
  · rw [opState_of_enabled enabled] at wait
    split at wait
    case isTrue frozen => exact (Bool.and_eq_true_iff.1 (Bool.and_eq_true_iff.1 frozen).1).1
    case isFalse => cases wait

theorem Sound.settle (h : Sound s) : Sound s.settle :=
  { h with wait := fzo_of_wait, tables := { h.tables with } }

/-! ### The interrupt message -/

theorem Sound.rearm (h : Sound s) : Sound s.rearm :=
  .ite (fun _ => h) fun _ => { h with tables := { h.tables with } }

/-- A message write that reaches its target writes memory; one that is not under way is no longer owed. -/
theorem Sound.land (h : Sound s) (m : MsiMsg) : Sound (s.land m) := by
  obtain ⟨memS, memNS⟩ := s.land_wf m ⟨h.tables.memS, h.tables.memNS⟩
  exact { h with tables := { h.tables with memS, memNS } }

theorem Sound.endWay (h : Sound s) : Sound { s with flight := none } :=
  { h with flight := nofun, tables := { h.tables with } }

theorem Sound.msiArrive (h : Sound s) : Sound s.msiArrive := by
  unfold State.msiArrive
  split
  · exact (h.land _).endWay
  · exact h

theorem Sound.endFlight (h : Sound s) (err : Bool) : Sound (s.endFlight err) := by
  obtain eq | ⟨-, eq | eq⟩ := s.endFlight_cases err <;> rw [eq]
  · exact h.msiArrive
  · exact h.used.msiArrive
  · exact h.used.endWay

theorem Sound.msiDone (h : Sound s) (err : Bool) : Sound (s.msiDone err) := by
  have ended := h.endFlight err
  have landed : (s.endFlight err).flight.isSome = false := by
    rw [State.endFlight_eq]
    rfl
  exact .ite (fun _ => { ended with
    busy := nofun
    flight := fun flying => absurd (landed.symm.trans flying) Bool.false_ne_true
    tables := { ended.tables with } }) fun _ => h

theorem Sound.msiStart (h : Sound s) : Sound s.msiStart := by
  refine .ite (fun ready => ?_) fun _ => h
  obtain ⟨msi, -⟩ := msiReady_eq_true.1 ready
  exact { h with busy := fun _ => msi, flight := fun _ => rfl, tables := { h.tables with } }

theorem Sound.strayEnd (h : Sound s) (k : Nat) (reaches : Bool) : Sound (s.strayEnd k reaches) := by
  have forget {t : State} {l : List MsiMsg} (sound : Sound t) : Sound { t with strays := l } :=
    { sound with tables := { sound.tables with } }
  unfold State.strayEnd
  split
  · exact .ite (fun _ => (forget h).land _) fun _ => forget h
  · exact h

end Sys2Proof.Machine
end

section
/-! Every access keeps the invariants of R466. -/

set_option Elab.async false

namespace Sys2Proof.Machine

variable {s t : State}

/-! ### The set and clear registers -/

section
variable {old : Vec} {present : Nat → Bool} (before : ∀ k, old.getLsbD k = true → present k = true)
include before

theorem present_of_set {w : Word} {m : Nat} (pmask : IsPmask w m present) (v : Word) {k : Nat}
    (set : (old ||| atWindow (v &&& w) m).getLsbD k = true) : present k = true := by
  rw [setsBits_or_atWindow old v pmask k (BitVec.lt_of_getLsbD set)] at set
  obtain was | written := Bool.or_eq_true_iff.1 set
  · exact before k was
  · exact (Bool.and_eq_true_iff.1 written).2

theorem present_of_clear (v : Word) (m : Nat) {k : Nat} (set : (old &&& ~~~atWindow v m).getLsbD k = true) :
    present k = true := by
  rw [BitVec.getLsbD_and, Bool.and_eq_true] at set
  exact before k set.1

end

/-! ### Fields that are replaced only where they are implemented -/

theorem implemented_of_replaced {has new old : Bool} (before : old = true → has = true)
    (set : (if has then new else old) = true) : has = true := by
  split at set
  case isTrue implemented => exact implemented
  case isFalse => exact before set

theorem zero_of_replaced {w : Nat} {has : Bool} {new old : BitVec w} (before : has = false → old = 0)
    (absent : has = false) : (if has then new else old) = 0 := by
  rw [absent]
  exact before absent

/-- PMCR (R281). -/
theorem pmcrInv_stored {c : Cfg} {p : PmcrBits} (h : PmcrInv c p) (v : Word) : PmcrInv c (pmcrStored c p v) where
  d set := Bool.and_eq_true_iff.1 (implemented_of_replaced (fun was => Bool.and_eq_true_iff.2 (h.d was)) set)
  x := implemented_of_replaced h.x
  dp := implemented_of_replaced h.dp
  fzo := implemented_of_replaced h.fzo
  hdbg := implemented_of_replaced h.hdbg
  tro := implemented_of_replaced h.tro

/-- PMIRQCR2 (R355); NSMSI is replaced by a Secure write only. -/
theorem irqcr2Inv_stored {c : Cfg} {p : Irqcr2Bits} (h : Irqcr2Inv c p) (ns : Bool) (v : Word) :
    Irqcr2Inv c (irqcr2Stored c p ns v) where
  msien := implemented_of_replaced h.msien
  nsmsi set := by
    rw [irqcr2Stored] at set
    dsimp only at set
    split at set
    case isTrue secure => exact (Bool.and_eq_true_iff.1 secure).1
    case isFalse => exact h.nsmsi set
  sh := zero_of_replaced h.sh
  memAttr := zero_of_replaced h.memAttr

/-- The stored bits, then the resets by P and C, each of which may be left out (R281). -/
theorem Sound.writePmcr (h : Sound s) (v : Word) : Sound (s.writePmcr v) := by
  have stored : Sound { s with pmcr := pmcrStored s.cfg s.pmcr v } :=
    { h with pmcr := pmcrInv_stored h.pmcr v, tables := { h.tables with } }
  have afterP := Sound.ite (c := v.getLsbD 1 = true) (fun _ => stored.resetMonitors) fun _ => stored
  exact .ite (fun _ => stored) fun _ => .ite (fun _ => afterP.resetCycleCounter) fun _ => afterP

/-! ### The other registers -/

theorem Sound.setSsrr (h : Sound s) {v : DWord} (inside : v &&& ~~~s.cfg.rpmask = 0) : Sound { s with pmssrr := v } :=
  { h with ssrr := inside, tables := { h.tables with } }

theorem Sound.setIrqcr0 (h : Sound s) {v : DWord} (inside : v &&& ~~~s.cfg.amask = 0) : Sound { s with irqcr0 := v } :=
  { h with addr := inside, tables := { h.tables with } }

/-- Each write that an access can make keeps the invariants. -/
theorem sound_accessRel (i : Instr) : AccessRel (fun s t => Sound s → Sound t) i where
  refl _ h := h
  trans first second h := second (first h)
  answer _ r h := h.answer r
  used _ h := h.used
  split _ _ _ _ h := { h with tables := { h.tables with } }
  counter s n v _ h := h.writeMonitorReg (.cntr n) (fits_wrap s.cfg n v)
  typer s n v _ h := h.writeMonitorReg (.typer n) (fits_typerValue s.cfg n v)
  filtr s n v _ h := h.writeMonitorReg (.filtr n) (fits_filtrValue s.cfg n v)
  cntenSet s m v h := h.putCnten fun _ => present_of_set h.enables (isPmask_enableMask s.cfg m) v
  cntenClr _ m v h := h.putCnten fun _ => present_of_clear h.enables v m
  intenSet s m v h := h.putInten fun _ => present_of_set h.intens (isPmask_flagMask s.cfg m) v
  intenClr _ m v h := h.putInten fun _ => present_of_clear h.intens v m
  ovsSet s m v h := h.putOvs fun _ => present_of_set h.flags (isPmask_flagMask s.cfg m) v
  ovsClr _ m v h := h.putOvs fun _ => present_of_clear h.flags v m
  impdef _ k _ h := .ite (fun _ => h.putImpdef k _) fun _ => h
  pmcr _ v h := h.writePmcr v
  capture _ _ h := h.capture
  ssrrLo _ v h := .ite (fun _ => h.setSsrr (replaceLowHalf_and_not h.ssrr v)) fun _ => h
  ssrrHi _ v h := .ite (fun _ => h.setSsrr (replaceHighHalf_and_not h.ssrr v)) fun _ => h
  ssrr s v h := .ite (fun _ => h.setSsrr (masked_and_not v s.cfg.rpmask)) fun _ => h
  irqcr0Lo _ v h := .ite (fun _ => h.setIrqcr0 (replaceLowHalf_and_not h.addr v)) fun _ => h
  irqcr0Hi _ v h := .ite (fun _ => h.setIrqcr0 (replaceHighHalf_and_not h.addr v)) fun _ => h
  irqcr0 s v h := .ite (fun _ => h.setIrqcr0 (masked_and_not v s.cfg.amask)) fun _ => h
  irqcr1 _ _ h := .ite (fun _ => { h with tables := { h.tables with } }) fun _ => h
  irqcr2 _ v h := .ite (fun _ =>
    { h with irqcr2 := irqcr2Inv_stored h.irqcr2 _ v, tables := { h.tables with } }) fun _ => h
  irqsr _ _ h := .ite (fun _ => { h with tables := { h.tables with } }) fun _ => h

theorem Sound.exec (h : Sound s) {i : Instr} (run : exec i s = .next t) : Sound t :=
  exec_rel (R := fun s t => Sound s → Sound t) (sound_accessRel i) run h

theorem Sound.arrive (h : Sound s) {frame : List Byte} (run : s.arrive frame = .next t) : Sound t := by
  unfold State.arrive at run
  split at run
  · cases run
  · split at run
    · cases run
    · split at run
      · cases run
      · exact h.exec run
      · cases run
        exact .ite (fun _ => h.answer _) fun _ => h.answer _

theorem Sound.finishSplit (h : Sound s) {k : Nat} (run : s.finishSplit k = .next t) : Sound t := by
  have removed : Sound { s with splits := s.splits.eraseIdx k } := { h with tables := { h.tables with } }
  unfold State.finishSplit at run
  split at run
  · split at run
    · rename_i u ran
      cases run
      exact (removed.exec ran).answer _
    · cases run
    · cases run
  · cases run
    exact h

end Sys2Proof.Machine
end

section
/-! The reset (R460, R461): what it leaves in each register array, and that the invariants of R466 hold after it. -/

set_option Elab.async false

namespace Sys2Proof.Machine

variable {s : State} {k : Nat}

/-! ### Tables filled key by key -/

section
variable {α : Type} {d v : α} {g : List (Nat × α) → Nat → List (Nat × α)} {m : List (Nat × α)} {l : List Nat}

/-- A key that is written once it is reached keeps what it got, since the others do not write it. -/
theorem Sparse.get_foldl (hit : ∀ m, Sparse.get d (g m k) k = v)
    (miss : ∀ m j, j ≠ k → Sparse.get d (g m j) k = Sparse.get d m k) :
    Sparse.get d (l.foldl g m) k = if k ∈ l then v else Sparse.get d m k := by
  induction l generalizing m with
  | nil => rfl
  | cons j l ih =>
    rw [List.foldl_cons, ih]
    by_cases later : k ∈ l
    · simp [later]
    · by_cases here : j = k
      · simp [later, here, hit]
      · simp [later, Ne.symm here, miss m j here]

variable [DecidableEq α]

theorem Sparse.get_foldl_set (f : Nat → α) (l : List Nat) (k : Nat) :
    Sparse.get d (l.foldl (fun m n => Sparse.set d m n (f n)) []) k = if k ∈ l then f k else d :=
  Sparse.get_foldl (fun m => Sparse.get_set_self) fun m j other => by rw [Sparse.get_set, if_neg other]

theorem Sparse.wf_foldl_set {β : Type} (key : β → Nat) (f : β → α) (l : List β) :
    Sparse.wf d (l.foldl (fun m b => Sparse.set d m (key b) (f b)) []) = true :=
  List.foldlRecOn (motive := fun m => Sparse.wf d m = true) _ _ rfl fun _ wf _ _ => Sparse.wf_set wf

end

/-! ### The register arrays after a reset -/

theorem resetStep_xAt (s : State) (n : Nat) : s.resetStep.xAt n
    = if n ∈ s.cfg.indices then s.cfg.wrap n (s.fresh (32 + 3 * n)).toNat else 0 :=
  Sparse.get_foldl_set _ _ n

section
variable {n : Nat} {m : MonCfg} (implemented : s.cfg.mon n = some m)
include implemented

theorem mem_filter_indices {f : MonCfg → Bool} (has : f m = true) : n ∈ s.cfg.indices.filter (s.cfg.monIs f) := by
  have has : s.cfg.monIs f n = true := Cfg.monIs_eq_true.2 ⟨m, implemented, has⟩
  exact List.mem_filter.2 ⟨Cfg.impl_mem_indices (Cfg.impl_of_monIs has), has⟩

theorem resetStep_typerAt (has : m.hasTyper = true) :
    s.resetStep.typerAt n = s.cfg.typerValue n ((s.fresh (33 + 3 * n)).setWidth 32) :=
  (Sparse.get_foldl_set _ _ n).trans (if_pos (mem_filter_indices implemented has))

theorem resetStep_filtrAt (has : m.hasFiltr = true) :
    s.resetStep.filtrAt n = s.cfg.filtrValue n ((s.fresh (34 + 3 * n)).setWidth 32) :=
  (Sparse.get_foldl_set _ _ n).trans (if_pos (mem_filter_indices implemented has))

end

/-- PMSSSR.NC is 1 after a reset (R460). -/
theorem resetStep_svrAt_ssrIdx (wf : s.cfg.wf = true) (ss : s.cfg.ss = true) : s.resetStep.svrAt s.cfg.ssrIdx = 1 := by
  obtain ⟨-, mapped, status, -⟩ := Cfg.ss_parts wf ss
  have svr : s.resetStep.svr = s.resetSvr := rfl
  rw [State.svrAt, svr, State.resetSvr, if_pos ss, Sparse.get_foldl (v := 1), if_pos (List.mem_range.2 mapped)]
  · intro m
    rw [status]
    exact Sparse.get_set_self
  · intro m j other
    split
    · rw [Sparse.get_set, if_neg other]
    · rfl
    · rw [Sparse.get_set, if_neg other]

theorem resetStep_svrAt_absent (ss : s.cfg.ss = false) (k : Nat) : s.resetStep.svrAt k = 0 := by
  have svr : s.resetStep.svr = s.resetSvr := rfl
  rw [State.svrAt, svr, State.resetSvr, if_neg (Bool.eq_false_iff.1 ss)]
  rfl

theorem resetSvr_wf (s : State) : Sparse.wf 0 s.resetSvr = true := by
  unfold State.resetSvr
  split
  · refine List.foldlRecOn (motive := fun m => Sparse.wf 0 m = true) _ _ rfl fun m wf k _ => ?_
    split
    · exact Sparse.wf_set wf
    · exact wf
    · exact Sparse.wf_set wf
  · rfl

/-! ### The invariants after a reset -/

theorem present_of_maskOf {v : Vec} {present : Nat → Bool} {n : Nat}
    (set : (v &&& maskOf 256 present).getLsbD n = true) : present n = true := by
  rw [BitVec.getLsbD_and, getLsbD_maskOf, Bool.and_eq_true, Bool.and_eq_true] at set
  exact set.2.2

theorem pmcrInv_resetStep (s : State) : PmcrInv s.cfg s.resetStep.pmcr where
  d set := Bool.and_eq_true_iff.1 (Bool.and_eq_true_iff.1 set).1
  x set := (Bool.and_eq_true_iff.1 set).1
  dp set := (Bool.and_eq_true_iff.1 set).1
  fzo set := (Bool.and_eq_true_iff.1 set).1
  hdbg set := (Bool.and_eq_true_iff.1 set).1
  tro set := (Bool.and_eq_true_iff.1 set).1

theorem irqcr2Inv_resetStep (s : State) : Irqcr2Inv s.cfg s.resetStep.irqcr2 where
  msien := nofun
  nsmsi set := (Bool.and_eq_true_iff.1 (Bool.and_eq_true_iff.1 set).1).2
  sh absent := by simp [State.resetStep, absent]
  memAttr absent := by simp [State.resetStep, absent]

/-- Each value is stated or drawn within its width or its mask, and nothing is in flight (R460). -/
theorem Sound.resetStep (h : Sound s) : Sound s.resetStep where
  cfgWf := h.cfgWf
  values n := by
    rw [resetStep_xAt]
    split
    · exact Cfg.wrap_lt _
    · exact Nat.two_pow_pos _
  enables _ := present_of_maskOf
  intens _ := present_of_maskOf
  flags _ := present_of_maskOf
  pmcr := pmcrInv_resetStep s
  wait := nofun
  noPend _ := rfl
  pend := nofun
  low _ held := absurd rfl held
  busy := nofun
  flight := nofun
  presc hasNot := by
    have presc : s.resetStep.presc = if s.cfg.cc && s.cfg.ccd then (s.fresh 18).setWidth 6 else 0 := rfl
    have ccd : s.cfg.ccd = false := hasNot
    rw [presc, ccd, Bool.and_false]
    rfl
  ssr := by
    have idx : s.resetStep.cfg.ssrIdx = s.cfg.ssrIdx := rfl
    rw [idx]
    cases ss : s.cfg.ss with
    | true => rw [resetStep_svrAt_ssrIdx h.cfgWf ss]; rfl
    | false => rw [resetStep_svrAt_absent ss]; rfl
  addr := masked_and_not _ _
  ssrr := masked_and_not _ _
  irqcr2 := irqcr2Inv_resetStep s
  typer n m implemented has := by
    rw [resetStep_typerAt (s := s) implemented has]
    exact fits_typerValue s.cfg n _ m implemented has
  filtr n m implemented has := by
    rw [resetStep_filtrAt (s := s) implemented has]
    exact fits_filtrValue s.cfg n _ m implemented has
  tables :=
    { h.tables with
      x := Sparse.wf_foldl_set id _ _
      typer := Sparse.wf_foldl_set id _ _
      filtr := Sparse.wf_foldl_set id _ _
      svr := resetSvr_wf s
      impdef := Sparse.wf_foldl_set ImpdefCfg.index _ _
      lowPend := rfl }

/-! ### The statements about the reset -/

theorem irqLevel_of_stop (stop : s.opState = .stop) : s.irqLevel = false := by
  simp [State.irqLevel, State.irqCond, stop]

/-- Settles O53: a reset clears PMCR.E, so the PMU stops and requests no interrupt, and it writes PMSSSR.NC after
everything else in that register. -/
theorem resetStopsThePmu : Obligations.ResetStopsThePmu := by
  unfold Obligations.ResetStopsThePmu
  refine ⟨fun s => ⟨s.resetStep, rfl, ?_, fun _ => ⟨rfl, rfl⟩, rfl, rfl, rfl, rfl, rfl⟩, ?_⟩
  · have stop : s.resetStep.opState = .stop := opState_of_disabled rfl
    have nsmsi (msi : s.cfg.msi = true) (nsCfg : s.cfg.msiNsCfg = true) :
        s.resetStep.irqcr2.nsmsi = s.cfg.nsmsiReset := by
      simp [State.resetStep, msi, nsCfg]
    exact ⟨rfl, rfl, nsmsi, resetStep_svrAt_ssrIdx (s := s), rfl, rfl, rfl, rfl, rfl, stop, irqLevel_of_stop stop, rfl⟩
  · have stop : State.reset.opState = .stop := opState_of_disabled rfl
    exact ⟨rfl, rfl, fun _ _ => rfl, fun _ _ => by decide, rfl, rfl, rfl, rfl, rfl, stop, irqLevel_of_stop stop, rfl⟩

theorem getLsbD_zeroVec {n : Nat} {P : Prop} (set : (0 : Vec).getLsbD n = true) : P := by
  cases BitVec.getLsbD_zero.symm.trans set

/-- Settles O54: every value is zero but those that the configuration fixes. -/
theorem resetMeetsInvariant : Obligations.ResetMeetsInvariant where
  values _ := Nat.two_pow_pos _
  enables _ := getLsbD_zeroVec
  intens _ := getLsbD_zeroVec
  flags _ := getLsbD_zeroVec
  pmcr := ⟨nofun, nofun, nofun, nofun, nofun, nofun⟩
  wait := nofun
  noPend _ := rfl
  pend := nofun
  low _ held := absurd rfl held
  busy := nofun
  flight := nofun
  presc _ := rfl
  ssr := by decide
  addr := BitVec.zero_and
  ssrr := BitVec.zero_and
  irqcr2 := ⟨nofun, nofun, fun _ => rfl, fun _ => rfl⟩
  typer n m implemented has := by
    have fixed : ∀ m ∈ Config.reference.mons, m.hasTyper = true →
        0 &&& ~~~m.typerMask = m.typerFixed &&& ~~~m.typerMask := by decide
    exact fixed m (Cfg.mon_mem implemented).1 has
  filtr n m implemented has := by
    have fixed : ∀ m ∈ Config.reference.mons, m.hasFiltr = true →
        ((State.reset.filtrAt m.index).setWidth 64).setWidth 32 &&& ~~~m.filtrMask = m.filtrFixed &&& ~~~m.filtrMask := by
      decide
    obtain ⟨mem, rfl⟩ := Cfg.mon_mem implemented
    exact fixed m mem has
  tables := ⟨rfl, rfl, rfl, rfl, rfl, rfl, rfl, rfl⟩

end Sys2Proof.Machine
end

section
/-! Every step keeps the invariants of R466, and the interrupt request (R422, R430). -/

set_option Elab.async false

namespace Sys2Proof.Machine

variable {s t : State}

/-! ### Every step -/

theorem Sound.take (h : Sound s) {i : Input} (run : s.take i = .next t) : Sound t := by
  cases i with
  | access frame => exact h.arrive run
  | splitHalf k => exact h.finishSplit run
  | settle => cases run; exact h.settle
  | count n e => cases run; exact h.count n e
  | monitorUpdate n v ovf e => cases run; exact h.monitorUpdate n v ovf e
  | takeEffect r => cases run; exact h.takeEffect r
  | cycle c => cases run; exact h.cycle c
  | chainLo n => cases run; exact h.chainLo n
  | snapReq => cases run; exact h.snapReq
  | msiStart => cases run; exact h.msiStart
  | msiDone err => cases run; exact h.msiDone err
  | msiArrive => cases run; exact h.msiArrive
  | strayEnd k reaches => cases run; exact h.strayEnd k reaches
  | reset => cases run; exact h.resetStep
  | setEnv env => cases run; exact { h with tables := { h.tables with } }

theorem Sound.idle (h : Sound s) (run : s.idle = .next t) : Sound t := by
  unfold State.idle at run
  split at run
  · exact h.finishSplit run
  · split at run
    · cases run; exact h.chainLo _
    · split at run
      · cases run; exact h.takeEffect _
      · split at run
        · cases run; exact h.settle
        · split at run
          · cases run; exact h.used.msiDone _
          · cases run; exact h.msiStart

theorem Sound.advance (h : Sound s) (run : s.advance = .next t) : Sound t := by
  unfold State.advance at run
  split at run
  case h_1 i rest _ =>
    have taken : Sound { s with inputs := rest } := { h with tables := { h.tables with } }
    exact taken.take run
  case h_2 => exact h.idle run

/-- Settles O55: a step starts from a well-formed configuration, and each agent's step and the re-arm after it keep
the invariants under one. -/
theorem stepKeepsInvariant : Obligations.StepKeepsInvariant := by
  unfold Obligations.StepKeepsInvariant
  intro s t inv run
  obtain ⟨cfgWf, u, advanced, rfl⟩ := step_eq_next run
  have sound : Sound s := { inv with cfgWf }
  exact (sound.advance advanced).rearm.toInv

/-! ### The interrupt request -/

theorem opState_ne_stop : s.opState ≠ .stop ↔ s.pmcr.e = true := by
  cases enabled : s.pmcr.e
  · simp [opState_of_disabled enabled]
  · rw [opState_of_enabled enabled]
    split <;> simp

/-- Settles O52: outside STOP is PMCR.E, and an implemented monitor is one that is looked at. -/
theorem interruptConditionIsEnabledOverflow : Obligations.InterruptConditionIsEnabledOverflow := by
  unfold Obligations.InterruptConditionIsEnabledOverflow
  intro s
  refine ⟨?_, rfl, irqLevel_of_stop⟩
  simp only [State.irqCond, Bool.and_eq_true, bne_iff_ne, opState_ne_stop, List.any_eq_true]
  refine and_congr_right fun _ => exists_congr fun n => ?_
  have looked : n ∈ s.cfg.indices ↔ s.cfg.impl n = true := ⟨Cfg.impl_of_mem_indices, Cfg.impl_mem_indices⟩
  rw [looked, and_assoc]

end Sys2Proof.Machine
end
